-- ==== Sys2Proof/Word.lean ====
section
/-! DEFINITION. The word types of the engine: the widths that spec rules R10, R36, R100 and R104 to R106 fix. -/

namespace Sys2Proof

/-- A byte: a geometry register, a command argument, a bus byte (R10). -/
abbrev Byte := BitVec 8

/-- A nibble: the FOUR_BIT transfer value, and the 4-bit codes `OP`, `cause`, `fault_op` (R36, R79). -/
abbrev Nibble := BitVec 4

/-- The host command word `cmd_word[19:0]` (R100). -/
abbrev CmdWord := BitVec 20

/-- One lone nibble on the bus with its RS level, `{RS, D[3:0]}` (30_encoding.md, opening paragraph). -/
abbrev NibbleWord := BitVec 5

/-- One bus byte with its RS level, `{RS, D[7:0]}` (30_encoding.md, opening paragraph). -/
abbrev ByteWord := BitVec 9

/-- A DDRAM address as the set-DDRAM-address command carries it: 7 bits (R74). -/
abbrev DdramAddr := BitVec 7

end Sys2Proof
end

