-- ==== Sys2Proof/Config.lean ====
section
/-! DEFINITION. What a build of the engine fixes (rules R8 to R11), as one record, and the free values: what the
spec leaves open at a point where the engine or the module goes on. -/

namespace Sys2Proof

/-- R3: the closed choice of bus mode. -/
inductive BusMode where
  | fourBit
  | eightBit
  deriving DecidableEq, Repr

/-- R11: the names of the delay constants. -/
inductive Delay where
  | tPowerUp | tInit4a | tInit4b | tInit4c | tInit4Sw
  | tInit8a | tInit8b | tInit8c
  | tFset | tDispCtl | tClear | tEntry | tReady
  | tELow | tEHigh | tESettle | tRs | tChar | tPrintEnd
  deriving DecidableEq, Repr

/-- R11: the value of every delay constant, in nanoseconds (a whole number of them: log 4). -/
structure Delays where
  powerUp  : Nat
  init4a   : Nat
  init4b   : Nat
  init4c   : Nat
  init4Sw  : Nat
  init8a   : Nat
  init8b   : Nat
  init8c   : Nat
  fset     : Nat
  dispCtl  : Nat
  clear    : Nat
  entry    : Nat
  ready    : Nat
  eLow     : Nat
  eHigh    : Nat
  eSettle  : Nat
  rs       : Nat
  char     : Nat
  printEnd : Nat
  deriving DecidableEq, Repr

/-- R8, R9, R11: the build parameters. `nData` is the number of data lines the builder connected, before R282
has checked it against the mode. -/
structure Config where
  busMode    : BusMode
  nData      : Nat
  fClkHz     : Nat
  trapUninit : Bool
  timerW     : Nat
  delays     : Delays
  deriving DecidableEq, Repr

/-- R281: what the module latches when reset drops a high E: nothing, the old levels, or the new (all zero) ones. -/
inductive ResetLatch where
  | nothing
  | oldLevels
  | newLevels
  deriving DecidableEq, Repr, Inhabited

/-! Free values. Each is a constant with no body, applied to a counter of the state: nothing can be proved of the
value it gives. -/

/-- R174, I7: the level RS or E has after its drive failed (log 7). -/
opaque Config.failedLevel : Nat → Bool

/-- R174, I7: the levels of the data lines after their drive failed (log 7). -/
opaque Config.failedData : Nat → Byte

/-- R174: whether the module sees a falling edge when a drive of a high E fails (log 7). -/
opaque Config.failedLatch : Nat → Bool

/-- R281, I8: what a reset edge with E high latches (log 8). -/
opaque Config.resetLatch : Nat → ResetLatch

/-- I6, I8, I21: a byte of the module's display memory once its state is unspecified (log 9). -/
opaque Config.lcdByte : Nat → Nat → Byte

/-- I6, I8, I21, R208: the module's address counter where the spec does not give it (log 9). -/
opaque Config.lcdAddr : Nat → DdramAddr

/-- R110, I6, I8, I13, I21: a flag of the module (by its number) where the spec does not give it (log 9). -/
opaque Config.lcdFlag : Nat → Nat → Bool

end Sys2Proof
end

