-- ==== Sys2Proof/Syntax.lean ====
section
/-! DEFINITION. The instructions: one constructor of `Instr` for each row of spec/opcode_table.json (rules R101,
R102, R103, R107), and the micro-ops of rules R170 to R173, which every expansion is a list of. -/

namespace Sys2Proof

/-- One constructor per row of the opcode table. The first nine are host commands, which the engine executes; a field
the operation ignores (R101) is kept, so that no bit of the word is lost. The other twelve are the words of the
bus (R107), which the engine emits and the LCD module executes (log 1). -/
inductive Instr where
  /-- BEGIN, R140. -/
  | lcdBegin (columns rows : Byte)
  /-- CLEAR, R200. -/
  | clear (ignored : BitVec 16)
  /-- SET_CURSOR, R202. -/
  | setCursor (column row : Byte)
  /-- PRINT_CHAR, R207. -/
  | printChar (ignored ch : Byte)
  /-- PRINT_END, R209. -/
  | printEnd (ignored : BitVec 16)
  /-- GET_COLUMNS, R211. -/
  | getColumns (ignored : BitVec 16)
  /-- GET_ROWS, R212. -/
  | getRows (ignored : BitVec 16)
  /-- OP 0x0, R103. -/
  | reserved0 (ignored : BitVec 16)
  /-- OP 0x8 to 0xF, R103: `op` is the whole OP field, so a well-formed term has its top bit set. -/
  | reserved8F (op : Nibble) (ignored : BitVec 16)
  /-- The lone init nibble 0x3 of FOUR_BIT, R144. -/
  | initNibble3
  /-- The lone nibble 0x2 of FOUR_BIT, R145. -/
  | switchNibble2
  /-- The raw init byte 0x30 of EIGHT_BIT, R144. -/
  | initByte30
  /-- Function set 0x20, R146. -/
  | fset4Bit1Line
  /-- Function set 0x28, R146. -/
  | fset4Bit2Line
  /-- Function set 0x30, R146. -/
  | fset8Bit1Line
  /-- Function set 0x38, R146. -/
  | fset8Bit2Line
  /-- Display control 0x0C, R147. -/
  | displayControl
  /-- Clear display 0x01, R200. -/
  | clearDisplay
  /-- Entry mode set 0x06, R149. -/
  | entryMode
  /-- Set DDRAM address `0x80 | addr`, R204. -/
  | setDdramAddr (addr : DdramAddr)
  /-- A character byte with RS = 1, R207. -/
  | writeData (ch : Byte)
  deriving DecidableEq, Repr

/-- R170 to R173: the sequencer's micro-ops. -/
inductive MicroOp where
  | drvRS (level : Bool)
  | drvE (level : Bool)
  | drvD (value : Byte)
  | wait (t : Delay)
  deriving DecidableEq, Repr

end Sys2Proof
end

