-- ==== Sys2Proof/Machine/Timing.lean ====
section
/-! DEFINITION. The delay constants, cycle counts and minimum durations (rules R11, R13, R35, R183), and the checks
of elaboration on the build parameters (rules R9, R11, R282, R293). -/

namespace Sys2Proof.Machine

/-- The constant a delay name stands for, in nanoseconds. -/
def delayNs (d : Delays) : Delay → Nat
  | .tPowerUp => d.powerUp
  | .tInit4a => d.init4a
  | .tInit4b => d.init4b
  | .tInit4c => d.init4c
  | .tInit4Sw => d.init4Sw
  | .tInit8a => d.init8a
  | .tInit8b => d.init8b
  | .tInit8c => d.init8c
  | .tFset => d.fset
  | .tDispCtl => d.dispCtl
  | .tClear => d.clear
  | .tEntry => d.entry
  | .tReady => d.ready
  | .tELow => d.eLow
  | .tEHigh => d.eHigh
  | .tESettle => d.eSettle
  | .tRs => d.rs
  | .tChar => d.char
  | .tPrintEnd => d.printEnd

/-- All the names of R11's table. -/
def allDelays : List Delay :=
  [.tPowerUp, .tInit4a, .tInit4b, .tInit4c, .tInit4Sw, .tInit8a, .tInit8b, .tInit8c, .tFset, .tDispCtl,
   .tClear, .tEntry, .tReady, .tELow, .tEHigh, .tESettle, .tRs, .tChar, .tPrintEnd]

/-- R11: the default of every delay constant, in nanoseconds. -/
def defaultDelays : Delays where
  powerUp  := 50000000
  init4a   := 5000000
  init4b   := 5000000
  init4c   := 150000
  init4Sw  := 150000
  init8a   := 5000000
  init8b   := 150000
  init8c   := 150000
  fset     := 1000000
  dispCtl  := 50000
  clear    := 2000000
  entry    := 50000
  ready    := 100000000
  eLow     := 2000
  eHigh    := 2000
  eSettle  := 1000000
  rs       := 100000
  char     := 150000
  printEnd := 150000

/-- Division that rounds up, by a positive `d`. -/
def ceilDiv (n d : Nat) : Nat := n / d + if n % d = 0 then 0 else 1

/-- R11: `cyc(T) = ceil(T * F_CLK_HZ)`. -/
def cyc (c : Config) (t : Delay) : Nat := ceilDiv (delayNs c.delays t * c.fClkHz) 1000000000

/-- R35: the cycles a wait occupies, `max(1, cyc(T))`. -/
def waitCycles (c : Config) (t : Delay) : Nat := max 1 (cyc c t)

/-- R35: what the timer is loaded with in a wait's first cycle, in a register of TIMER_W bits. -/
def timerLoad (c : Config) (t : Delay) : Nat := (waitCycles c t - 1) % 2 ^ c.timerW

/-- R183: the cycles a micro-op occupies. -/
def microCycles (c : Config) : MicroOp → Nat
  | .drvRS _ => 1
  | .drvE _ => 1
  | .drvD _ => 1
  | .wait t => waitCycles c t

/-- The cycles of a list of micro-ops, run one after the other. -/
def sequenceCycles (c : Config) (l : List MicroOp) : Nat := (l.map (microCycles c)).sum

/-- R183: the clock edges from the accepting one to the response, `N = 1 + k + sum max(1, cyc(Wi))`. -/
def responseEdges (c : Config) (l : List MicroOp) : Nat := 1 + sequenceCycles c l

/-- R13, R300: the least time a micro-op takes, in nanoseconds: a drive has no minimum. -/
def microMinNs (d : Delays) : MicroOp → Nat
  | .drvRS _ => 0
  | .drvE _ => 0
  | .drvD _ => 0
  | .wait t => delayNs d t

/-- R300: the least time of a list of micro-ops, in nanoseconds. -/
def minDurationNs (d : Delays) (l : List MicroOp) : Nat := (l.map (microMinNs d)).sum

/-- R9: the data lines of a mode. -/
def dataLines : BusMode → Nat
  | .fourBit => 4
  | .eightBit => 8

/-! The checks of elaboration. -/

/-- R282: the data-line count agrees with the bus mode. -/
def dataCountOk (c : Config) : Bool := c.nData == dataLines c.busMode

/-- R9: the clock frequency is positive. -/
def clockOk (c : Config) : Bool := 0 < c.fClkHz

/-- R11, R293: no delay lies below its default. -/
def delaysOk (c : Config) : Bool := allDelays.all fun t => delayNs defaultDelays t ≤ delayNs c.delays t

/-- R9: TIMER_W is at least the width of the largest cycle count. -/
def timerOk (c : Config) : Bool := allDelays.all fun t => cyc c t < 2 ^ c.timerW

/-- R8, R9, R282: the build parameters are those of an engine that exists. -/
def buildable (c : Config) : Bool := dataCountOk c && clockOk c && delaysOk c && timerOk c

/-- The build that `State.reset` stands for: FOUR_BIT at 1 MHz with the defaults and no trap (log 5). -/
def standardConfig : Config where
  busMode := .fourBit
  nData := 4
  fClkHz := 1000000
  trapUninit := false
  timerW := 17
  delays := defaultDelays

end Sys2Proof.Machine
end

