-- ==== Sys2Proof/Machine/State.lean ====
section
/-! DEFINITION. The state: every element of rule R30's record, the build parameters, the observations of rule R71, and
the agents beside the engine (the host, the environment's draws, the LCD module of rule R41). Plain data. -/

namespace Sys2Proof.Machine

/-- R33. -/
inductive InitState where
  | uninit
  | ready
  deriving DecidableEq, Repr

/-- R240: the causes of a fault that the engine raises. -/
inductive Cause where
  | rowRange
  | rowTable
  | addrOverflow
  | pinDrive
  | illegalOp
  | uninitUse
  deriving DecidableEq, Repr

/-- R70: the event `Latch(rs, d)`; in FOUR_BIT the value is D[3:0]. -/
structure Transfer where
  rs    : Bool
  value : Byte
  deriving DecidableEq, Repr

/-- R71: a micro-op of the pin trace with the clock cycle in which it starts (cycles numbered from 1). -/
structure TraceEntry where
  op    : MicroOp
  start : Nat
  deriving DecidableEq, Repr

/-- What the world outside does in one clock cycle. `rstN` and `pinErr` are the pins of R42 and R43. `hold` makes a
wait last longer than its minimum (R13, log 6). `hostIdle` keeps the host from presenting its next command (R85). With
`lcdMisses` the module is busy and loses a transfer made in this cycle (R295). -/
structure Draw where
  rstN      : Bool
  pinErr    : Bool
  hold      : Bool
  hostIdle  : Bool
  lcdMisses : Bool
  deriving DecidableEq, Repr

/-- The cycle in which nothing special happens. -/
def Draw.quiet : Draw where
  rstN := true
  pinErr := false
  hold := false
  hostIdle := false
  lcdMisses := false

/-- R41: the module's interface width with, in its 4-bit interface, the pending high nibble of a pair (95 §4). -/
inductive LcdPhase where
  | unknown
  | eight
  | four (half : Option Nibble)
  deriving DecidableEq, Repr

/-- The LCD module as an environment agent (R41, 95_test_vectors.md §4; general knowledge, log 9). No engine rule
reads it. -/
structure Lcd where
  /-- Interface width and nibble phase. -/
  phase      : LcdPhase
  /-- How many of the latest transfers were wake-up values, up to 3 (R144, I3). -/
  wakes      : Nat
  /-- The display memory, in canonical form: what is not listed reads 0x20. -/
  ddram      : List Host.Cell
  /-- The address counter. -/
  ac         : DdramAddr
  /-- N of the function set (R110): two lines. -/
  twoLine    : Bool
  /-- F of the function set (R110): the font bit. -/
  font       : Bool
  displayOn  : Bool
  cursorOn   : Bool
  blinkOn    : Bool
  increment  : Bool
  shift      : Bool
  /-- The model's counter of free values already used by the module. -/
  freeIdx    : Nat
  deriving DecidableEq, Repr

/-- The whole state. -/
structure State where
  /-- The build parameters: constant for the machine's life (R8), held here because `step` takes only a state (log 5). -/
  cfg        : Config
  /-- R31: the level of the RS pin. -/
  rsQ        : Bool
  /-- R31: the level of the E pin. -/
  eQ         : Bool
  /-- R31: the levels of the data lines; in FOUR_BIT bits 7:4 are 0. -/
  dQ         : Byte
  /-- R32. -/
  columns    : Byte
  /-- R32. -/
  rows       : Byte
  /-- R33. -/
  initState  : InitState
  /-- R34. -/
  busy       : Bool
  /-- R34. -/
  curOp      : Nibble
  /-- R34. -/
  argA       : Byte
  /-- R34. -/
  argB       : Byte
  /-- R34: the expansion of the accepted command. -/
  seq        : List MicroOp
  /-- R34: the index in `seq` of the micro-op being performed. -/
  upc        : Nat
  /-- R35: the wait counter, a number below `2 ^ TIMER_W`. -/
  timer      : Nat
  /-- R36. -/
  fault      : Bool
  /-- R36. -/
  cause      : Nibble
  /-- R36. -/
  faultOp    : Nibble
  /-- R45. -/
  rspValid   : Bool
  /-- R45. -/
  rspData    : Byte
  /-- R45. -/
  rspErr     : Bool
  /-- Clock edges so far: the time of R71. -/
  now        : Nat
  /-- R71: the pin trace, oldest first. -/
  trace      : List TraceEntry
  /-- R71: the transfer list, oldest first. -/
  transfers  : List Transfer
  /-- The host: the command words it still has to issue, the one it holds on the port first (R291, log 10). -/
  host       : List CmdWord
  /-- The environment: one draw a clock cycle, the next one first; a quiet cycle when the list is used up (log 10). -/
  draws      : List Draw
  /-- R41: the LCD module. -/
  lcd        : Lcd
  /-- The model's counter of free values already used by the engine (R174, R281). -/
  freeIdx    : Nat
  deriving DecidableEq, Repr

/-- Why the machine stops with no next state. -/
inductive Fault where
  /-- Raised by `microCycle` when `upc` lies beyond the end of `seq`. R34 says this cannot be; no reachable state has
  it. Safe. -/
  | upcBeyondSequence
  deriving DecidableEq, Repr

/-- Why a step has no meaning. -/
inductive Refusal where
  /-- No meaning for the instruction (the host's form); no arm raises it. Safe. -/
  | notModelled (mnemonic : String)
  /-- Raised by `cycle` when elaboration refuses the build parameters: no such engine exists and it has no step
  (R282). Safe. -/
  | notBuilt
  deriving DecidableEq, Repr

/-- The module when the power comes up: its interface width is unknown (R41). The other values are named only so that
the state is written out (log 9). -/
def Lcd.powerUp : Lcd where
  phase := .unknown
  wakes := 0
  ddram := []
  ac := 0
  twoLine := false
  font := false
  displayOn := false
  cursorOn := false
  blinkOn := false
  increment := false
  shift := false
  freeIdx := 0

/-- The engine of a build right after reset (R44), with no observation made yet, no host command and no draw. -/
def State.afterReset (c : Config) : State where
  cfg := c
  rsQ := false
  eQ := false
  dQ := 0
  columns := 0
  rows := 0
  initState := .uninit
  busy := false
  curOp := 0
  argA := 0
  argB := 0
  seq := []
  upc := 0
  timer := 0
  fault := false
  cause := 0
  faultOp := 0
  rspValid := false
  rspData := 0
  rspErr := false
  now := 0
  trace := []
  transfers := []
  host := []
  draws := []
  lcd := .powerUp
  freeIdx := 0

/-- R44: the machine right after reset. -/
def State.reset : State := State.afterReset standardConfig

end Sys2Proof.Machine
end

