-- ==== Sys2Proof/Machine/Ddram.lean ====
section
/-! DEFINITION. The display memory of the LCD module (95_test_vectors.md §4: `ddram[0..127]`) as a list of cells in
canonical form: addresses strictly rising, each below 128, and no cell that holds the blank. -/

namespace Sys2Proof.Machine

/-- What an unlisted address reads as: 0x20, with which command 0x01 fills the memory (95 §4). -/
def ddramBlank : Byte := 0x20

/-- The size of the memory: the address field has 7 bits (R74). -/
def ddramSize : Nat := 128

/-- One byte of the memory. -/
def ddramRead : List Host.Cell → Nat → Byte
  | [], _ => ddramBlank
  | (a, v) :: rest, addr => if a = addr then v else ddramRead rest addr

/-- A cell in front of a list, unless it holds the blank. -/
def ddramCons (addr : Nat) (v : Byte) (m : List Host.Cell) : List Host.Cell :=
  if v = ddramBlank then m else (addr, v) :: m

/-- The memory after a write. -/
def ddramWrite : List Host.Cell → Nat → Byte → List Host.Cell
  | [], addr, v => ddramCons addr v []
  | (a, w) :: rest, addr, v =>
    if addr < a then ddramCons addr v ((a, w) :: rest)
    else if addr = a then ddramCons addr v rest
    else (a, w) :: ddramWrite rest addr v

/-- The canonical form, all addresses at least `low`. -/
def ddramWfFrom : Nat → List Host.Cell → Bool
  | _, [] => true
  | low, (a, v) :: rest => low ≤ a && a < ddramSize && v != ddramBlank && ddramWfFrom (a + 1) rest

/-- The canonical form. -/
def ddramWf (m : List Host.Cell) : Bool := ddramWfFrom 0 m

/-- `m` with the addresses below `n` overwritten by the bytes that `f` gives. -/
def ddramFill (f : Nat → Byte) : Nat → List Host.Cell → List Host.Cell
  | 0, m => m
  | n + 1, m => ddramWrite (ddramFill f n m) n (f n)

end Sys2Proof.Machine
end

