-- ==== Sys2Proof/WellFormed.lean ====
section
/-! DEFINITION. When a term of `Instr` is an instruction. The field widths are in the types; one check is left, that
the OP of a reserved command of the range 0x8 to 0xF lies in that range (R102, R103). -/

namespace Sys2Proof

/-- R102: the OP values of the second reserved row. -/
def reservedHighOp (op : Nibble) : Bool := 8 ≤ op.toNat

def Instr.wellFormed : Instr → Bool
  | .reserved8F op _ => reservedHighOp op
  | .lcdBegin _ _ | .clear _ | .setCursor _ _ | .printChar _ _ | .printEnd _ | .getColumns _ | .getRows _
  | .reserved0 _ => true
  | .initNibble3 | .switchNibble2 | .initByte30 | .fset4Bit1Line | .fset4Bit2Line | .fset8Bit1Line | .fset8Bit2Line
  | .displayControl | .clearDisplay | .entryMode | .setDdramAddr _ | .writeData _ => true

end Sys2Proof
end

