-- ==== Sys2Proof/Decode.lean ====
section
/-! DEFINITION. The two encodings of 30_encoding.md, the host command word (R100 to R103) and the bus words (R107),
with the decoder (total, a rejection has a name), the encoder, and the opcode table's masks and matches. -/

namespace Sys2Proof

/-- A word in one of the opcode table's three formats: `host_cmd`, `hd44780_nibble`, `hd44780_byte`. -/
inductive Code where
  | host (w : CmdWord)
  | nibble (w : NibbleWord)
  | byte (w : ByteWord)
  deriving DecidableEq, Repr

/-- Why a word is no instruction of the opcode table. -/
inductive DecodeError where
  /-- No format has this length. -/
  | badLength (nbits : Nat)
  /-- A bit stands above the format's width. -/
  | spareBits (nbits w : Nat)
  /-- A lone nibble the engine never emits (R107). -/
  | unknownNibble (w : NibbleWord)
  /-- A command byte the engine never emits (R107). -/
  | unknownByte (w : ByteWord)
  deriving DecidableEq, Repr

/-! Fields of the host command word (R100). -/

def opField (w : CmdWord) : Nibble := w.extractLsb' 16 4
def aField (w : CmdWord) : Byte := w.extractLsb' 8 8
def bField (w : CmdWord) : Byte := w.extractLsb' 0 8
def abField (w : CmdWord) : BitVec 16 := w.extractLsb' 0 16

/-- R102: all 16 values of OP; the last branch is reached by 0x8 to 0xF only. -/
def decodeCommand (w : CmdWord) : Instr :=
  let op := opField w
  if op = 0x0#4 then .reserved0 (abField w)
  else if op = 0x1#4 then .lcdBegin (aField w) (bField w)
  else if op = 0x2#4 then .clear (abField w)
  else if op = 0x3#4 then .setCursor (aField w) (bField w)
  else if op = 0x4#4 then .printChar (aField w) (bField w)
  else if op = 0x5#4 then .printEnd (abField w)
  else if op = 0x6#4 then .getColumns (abField w)
  else if op = 0x7#4 then .getRows (abField w)
  else .reserved8F op (abField w)

/-- R107: the two lone nibbles, with RS = 0. -/
def decodeNibble (w : NibbleWord) : Except DecodeError Instr :=
  if w = 0b00011#5 then .ok .initNibble3
  else if w = 0b00010#5 then .ok .switchNibble2
  else .error (.unknownNibble w)

/-- R107: the bus bytes. Two rows of the table are the one word 0x030; which of them it is depends on where it
stands: in the init phase it is the raw init byte (R144), after it the function set (R146) (log 2). -/
def decodeByte (initPhase : Bool) (w : ByteWord) : Except DecodeError Instr :=
  if w.getLsbD 8 then .ok (.writeData (w.extractLsb' 0 8))
  else if w.getLsbD 7 then .ok (.setDdramAddr (w.extractLsb' 0 7))
  else if w = 0x020#9 then .ok .fset4Bit1Line
  else if w = 0x028#9 then .ok .fset4Bit2Line
  else if w = 0x030#9 then .ok (if initPhase then .initByte30 else .fset8Bit1Line)
  else if w = 0x038#9 then .ok .fset8Bit2Line
  else if w = 0x00C#9 then .ok .displayControl
  else if w = 0x001#9 then .ok .clearDisplay
  else if w = 0x006#9 then .ok .entryMode
  else .error (.unknownByte w)

def decode (initPhase : Bool) : Code → Except DecodeError Instr
  | .host w => .ok (decodeCommand w)
  | .nibble w => decodeNibble w
  | .byte w => decodeByte initPhase w

/-- A number of `nbits` bits as a word of the format with that width; the width is taken as the table gives it
(20, 5, 9) or in whole bytes (24, 8, 16). -/
def codeOfBits (nbits w : Nat) : Except DecodeError Code :=
  if nbits = 24 ∨ nbits = 20 then
    if w < 2 ^ 20 then .ok (.host (BitVec.ofNat 20 w)) else .error (.spareBits nbits w)
  else if nbits = 8 ∨ nbits = 5 then
    if w < 2 ^ 5 then .ok (.nibble (BitVec.ofNat 5 w)) else .error (.spareBits nbits w)
  else if nbits = 16 ∨ nbits = 9 then
    if w < 2 ^ 9 then .ok (.byte (BitVec.ofNat 9 w)) else .error (.spareBits nbits w)
  else .error (.badLength nbits)

/-- The number a list of bytes stands for, the first byte its least significant one (log 3). -/
def bytesToNat : List Byte → Nat
  | [] => 0
  | b :: rest => b.toNat + 256 * bytesToNat rest

/-- The decoder on bytes: a word of 1, 2 or 3 bytes in the opcode table's numbering. -/
def decodeBytes (initPhase : Bool) (bytes : List Byte) : Except DecodeError Instr :=
  match codeOfBits (8 * bytes.length) (bytesToNat bytes) with
  | .ok c => decode initPhase c
  | .error e => .error e

/-- The bytes of a word of `n` bytes, least significant byte first. -/
def natToBytes : Nat → Nat → List Byte
  | 0, _ => []
  | n + 1, w => BitVec.ofNat 8 w :: natToBytes n (w / 256)

/-- The bytes that hold `nbits` bits: the table's widths 20, 5 and 9, or the same in whole bytes. -/
def byteCount (nbits : Nat) : Nat := (nbits + 7) / 8

/-- What the decoder reads from a word of the opcode table, outside the init phase. -/
def decodeTableWord (nbits w : Nat) : Option Instr :=
  if w < 2 ^ nbits then
    match decodeBytes false (natToBytes (byteCount nbits) w) with
    | .ok i => some i
    | .error _ => none
  else none

/-! The encoder. -/

/-- The two argument fields as one, `(A << 8) | B`. -/
def argWord (a b : Byte) : BitVec 16 := a.setWidth 16 <<< 8 ||| b.setWidth 16

/-- R100 with the two argument fields as one. -/
def commandWord16 (op : Nibble) (ab : BitVec 16) : CmdWord := op.setWidth 20 <<< 16 ||| ab.setWidth 20

/-- R120: `(OP << 16) | (A << 8) | B`. -/
def commandWord (op : Nibble) (a b : Byte) : CmdWord :=
  op.setWidth 20 <<< 16 ||| a.setWidth 20 <<< 8 ||| b.setWidth 20

/-- `{RS, D[3:0]}`. -/
def nibbleWord (rs : Bool) (v : Nibble) : NibbleWord := (BitVec.ofBool rs).setWidth 5 <<< 4 ||| v.setWidth 5

/-- `{RS, D[7:0]}`. -/
def busWord (rs : Bool) (v : Byte) : ByteWord := (BitVec.ofBool rs).setWidth 9 <<< 8 ||| v.setWidth 9

/-- A byte from its high and its low nibble (R79). -/
def pairByte (high low : Nibble) : Byte := high.setWidth 8 <<< 4 ||| low.setWidth 8

def encode : Instr → Code
  | .lcdBegin columns rows => .host (commandWord 0x1#4 columns rows)
  | .clear ab => .host (commandWord16 0x2#4 ab)
  | .setCursor column row => .host (commandWord 0x3#4 column row)
  | .printChar a ch => .host (commandWord 0x4#4 a ch)
  | .printEnd ab => .host (commandWord16 0x5#4 ab)
  | .getColumns ab => .host (commandWord16 0x6#4 ab)
  | .getRows ab => .host (commandWord16 0x7#4 ab)
  | .reserved0 ab => .host (commandWord16 0x0#4 ab)
  | .reserved8F op ab => .host (commandWord16 op ab)
  | .initNibble3 => .nibble 0b00011#5
  | .switchNibble2 => .nibble 0b00010#5
  | .initByte30 => .byte (busWord false 0x30#8)
  | .fset4Bit1Line => .byte (busWord false 0x20#8)
  | .fset4Bit2Line => .byte (busWord false 0x28#8)
  | .fset8Bit1Line => .byte (busWord false 0x30#8)
  | .fset8Bit2Line => .byte (busWord false 0x38#8)
  | .displayControl => .byte (busWord false 0x0C#8)
  | .clearDisplay => .byte (busWord false 0x01#8)
  | .entryMode => .byte (busWord false 0x06#8)
  | .setDdramAddr addr => .byte (busWord false (0x80#8 ||| addr.setWidth 8))
  | .writeData ch => .byte (busWord true ch)

/-- Whether the instruction stands in BEGIN's init phase (R144): the context the decoder needs to tell the two
rows of the word 0x030 apart. -/
def Instr.inInitPhase : Instr → Bool
  | .initNibble3 | .switchNibble2 | .initByte30 => true
  | .lcdBegin _ _ | .clear _ | .setCursor _ _ | .printChar _ _ | .printEnd _ | .getColumns _ | .getRows _
  | .reserved0 _ | .reserved8F _ _ | .fset4Bit1Line | .fset4Bit2Line | .fset8Bit1Line | .fset8Bit2Line
  | .displayControl | .clearDisplay | .entryMode | .setDdramAddr _ | .writeData _ => false

/-- The word as a number, and the width of its format. -/
def Code.bits : Code → Nat
  | .host w => w.toNat
  | .nibble w => w.toNat
  | .byte w => w.toNat

def Code.width : Code → Nat
  | .host _ => 20
  | .nibble _ => 5
  | .byte _ => 9

/-- One row of spec/opcode_table.json: the width of its format, its mask and its match. -/
structure TableRow where
  width  : Nat
  mask   : Nat
  pattern : Nat
  deriving DecidableEq, Repr

/-- The row of spec/opcode_table.json that a constructor stands for, in the table's own figures. -/
def Instr.tableRow : Instr → TableRow
  | .lcdBegin _ _ => ⟨20, 0xF0000, 0x10000⟩
  | .clear _ => ⟨20, 0xF0000, 0x20000⟩
  | .setCursor _ _ => ⟨20, 0xF0000, 0x30000⟩
  | .printChar _ _ => ⟨20, 0xF0000, 0x40000⟩
  | .printEnd _ => ⟨20, 0xF0000, 0x50000⟩
  | .getColumns _ => ⟨20, 0xF0000, 0x60000⟩
  | .getRows _ => ⟨20, 0xF0000, 0x70000⟩
  | .reserved0 _ => ⟨20, 0xF0000, 0x00000⟩
  | .reserved8F _ _ => ⟨20, 0x80000, 0x80000⟩
  | .initNibble3 => ⟨5, 0x1F, 0x03⟩
  | .switchNibble2 => ⟨5, 0x1F, 0x02⟩
  | .initByte30 => ⟨9, 0x1FF, 0x030⟩
  | .fset4Bit1Line => ⟨9, 0x1FF, 0x020⟩
  | .fset4Bit2Line => ⟨9, 0x1FF, 0x028⟩
  | .fset8Bit1Line => ⟨9, 0x1FF, 0x030⟩
  | .fset8Bit2Line => ⟨9, 0x1FF, 0x038⟩
  | .displayControl => ⟨9, 0x1FF, 0x00C⟩
  | .clearDisplay => ⟨9, 0x1FF, 0x001⟩
  | .entryMode => ⟨9, 0x1FF, 0x006⟩
  | .setDdramAddr _ => ⟨9, 0x180, 0x080⟩
  | .writeData _ => ⟨9, 0x100, 0x100⟩

end Sys2Proof
end

