-- ==== Sys2Proof/Machine/Operands.lean ====
section
/-! DEFINITION. The operand forms: the argument fields of a command (R101), the row-offset table (R37), the address of
SET_CURSOR with its checks (R202, R203), the bytes that commands assemble (R108, R109), and what of a value reaches
the data lines (R172). -/

namespace Sys2Proof.Machine

/-- R100: field A of the two ignored argument fields. -/
def ignoredA (ab : BitVec 16) : Byte := ab.extractLsb' 8 8

/-- R100: field B of the two ignored argument fields. -/
def ignoredB (ab : BitVec 16) : Byte := ab.extractLsb' 0 8

/-- R37: `ROW_OFFSET`, with no entry from 4 upward. -/
def rowOffset (row : Byte) : Option Byte :=
  if row = 0#8 then some 0x00#8
  else if row = 1#8 then some 0x40#8
  else if row = 2#8 then some 0x14#8
  else if row = 3#8 then some 0x54#8
  else none

/-- R203: the 9-bit sum `zext_9(column) + zext_9(ROW_OFFSET[row])`. -/
def addrSum (column offset : Byte) : BitVec 9 := column.setWidth 9 + offset.setWidth 9

/-- R202: the checks of SET_CURSOR in their order, and the address when all pass. -/
def cursorAddr (rows column row : Byte) : Except Cause Byte :=
  if rows.toNat ≤ row.toNat then .error .rowRange
  else match rowOffset row with
    | none => .error .rowTable
    | some offset =>
      if 0xFF < (addrSum column offset).toNat then .error .addrOverflow
      else .ok ((addrSum column offset).setWidth 8)

/-- R40, R108: the two-line flag, an unsigned comparison. -/
def twoLineFlag (rows : Byte) : Bool := 1 < rows.toNat

/-- R108: the function-set byte. -/
def fset (m : BusMode) (rows : Byte) : Byte :=
  (match m with | .fourBit => 0x20#8 | .eightBit => 0x30#8) ||| (if twoLineFlag rows then 0x08#8 else 0x00#8)

/-- R109: the set-DDRAM-address byte; bit 7 of the address merges with the opcode bit. -/
def setDdramByte (addr : Byte) : Byte := 0x80#8 ||| addr

/-- R79: the high nibble, `v >> 4`. -/
def highNibble (v : Byte) : Byte := v >>> 4

/-- R79: the low nibble, `v & 0x0F`. -/
def lowNibble (v : Byte) : Byte := v &&& 0x0F#8

/-- R172: the bits of a value that reach data lines. -/
def onDataLines (m : BusMode) (v : Byte) : Byte :=
  match m with
  | .fourBit => v &&& 0x0F#8
  | .eightBit => v

end Sys2Proof.Machine
end

