-- ==== Sys2Proof/Machine/Expansion.lean ====
section
/-! DEFINITION. The composite primitives (R176 to R180), the emission of each bus word of the opcode table (R107,
R144 to R149, R204, R207), and the expansions of the host commands (R151, R200, R204, R207, R209, R211, R212). -/

namespace Sys2Proof.Machine

/-- R176: PULSE. -/
def pulse : List MicroOp :=
  [.drvE false, .wait .tELow, .drvE true, .wait .tEHigh, .drvE false, .wait .tESettle]

/-- R177: WRITE_NIBBLE(v), of which only `v[3:0]` is used. -/
def writeNibble (v : Byte) : List MicroOp := [.drvD (lowNibble v)] ++ pulse

/-- R178: WRITE_BITS(v). -/
def writeBits (v : Byte) : List MicroOp := [.drvD v] ++ pulse

/-- R179, R180: SEND(v, is_data). -/
def send (m : BusMode) (v : Byte) (isData : Bool) : List MicroOp :=
  [.drvRS isData, .wait .tRs] ++
    match m with
    | .fourBit => writeNibble (highNibble v) ++ writeNibble (lowNibble v)
    | .eightBit => writeBits v

/-- The value of a bus word on the data lines. -/
def busValue : Code → Byte
  | .host _ => 0
  | .nibble w => w.setWidth 8 &&& 0x0F#8
  | .byte w => w.setWidth 8

/-- How the engine emits each bus word of the opcode table: raw in the init phase (R144, R145), by SEND everywhere
else (R146 to R149, R200, R204, R207). A host command is no bus word. -/
def emission (m : BusMode) (i : Instr) : List MicroOp :=
  match i with
  | .initNibble3 => writeNibble (busValue (encode i))
  | .switchNibble2 => writeNibble (busValue (encode i))
  | .initByte30 => writeBits (busValue (encode i))
  | .fset4Bit1Line => send m (busValue (encode i)) false
  | .fset4Bit2Line => send m (busValue (encode i)) false
  | .fset8Bit1Line => send m (busValue (encode i)) false
  | .fset8Bit2Line => send m (busValue (encode i)) false
  | .displayControl => send m (busValue (encode i)) false
  | .clearDisplay => send m (busValue (encode i)) false
  | .entryMode => send m (busValue (encode i)) false
  | .setDdramAddr _ => send m (busValue (encode i)) false
  | .writeData _ => send m (busValue (encode i)) true
  | .lcdBegin _ _ | .clear _ | .setCursor _ _ | .printChar _ _ | .printEnd _ | .getColumns _ | .getRows _
  | .reserved0 _ | .reserved8F _ _ => []

/-- R144, R145: the init phase of a mode. -/
def initPhase : BusMode → List MicroOp
  | .fourBit =>
    emission .fourBit .initNibble3 ++ [.wait .tInit4a] ++
    emission .fourBit .initNibble3 ++ [.wait .tInit4b] ++
    emission .fourBit .initNibble3 ++ [.wait .tInit4c] ++
    emission .fourBit .switchNibble2 ++ [.wait .tInit4Sw]
  | .eightBit =>
    emission .eightBit .initByte30 ++ [.wait .tInit8a] ++
    emission .eightBit .initByte30 ++ [.wait .tInit8b] ++
    emission .eightBit .initByte30 ++ [.wait .tInit8c]

/-- R151: the BEGIN expansion. -/
def beginSeq (m : BusMode) (rows : Byte) : List MicroOp :=
  [.wait .tPowerUp] ++
  [.drvRS false, .drvE false] ++
  initPhase m ++
  send m (fset m rows) false ++ [.wait .tFset] ++
  emission m .displayControl ++ [.wait .tDispCtl] ++
  emission m .clearDisplay ++ [.wait .tClear] ++
  emission m .entryMode ++ [.wait .tEntry] ++
  [.wait .tReady]

/-- R200: the CLEAR expansion. -/
def clearSeq (m : BusMode) : List MicroOp := emission m .clearDisplay ++ [.wait .tClear]

/-- R204: the SET_CURSOR expansion, with no wait of its own after the SEND. -/
def setCursorSeq (m : BusMode) (addr : Byte) : List MicroOp := send m (setDdramByte addr) false

/-- R207: the PRINT_CHAR expansion. -/
def printCharSeq (m : BusMode) (ch : Byte) : List MicroOp := emission m (.writeData ch) ++ [.wait .tChar]

/-- R209: the PRINT_END expansion. -/
def printEndSeq : List MicroOp := [.wait .tPrintEnd]

/-- R211, R212: the expansion of the getters. -/
def getterSeq : List MicroOp := []

/-- R244: `expansion(op, a, b, rows, BUS_MODE)`: the expansion of an accepted command with these latched fields.
Nothing for a command that a check of R244 turns into a fault. -/
def expansionOf (m : BusMode) (rows : Byte) (op : Nibble) (a b : Byte) : Option (List MicroOp) :=
  if op = 0x1#4 then some (beginSeq m b)
  else if op = 0x2#4 then some (clearSeq m)
  else if op = 0x3#4 then
    match cursorAddr rows a b with
    | .ok addr => some (setCursorSeq m addr)
    | .error _ => none
  else if op = 0x4#4 then some (printCharSeq m b)
  else if op = 0x5#4 then some printEndSeq
  else if op = 0x6#4 then some getterSeq
  else if op = 0x7#4 then some getterSeq
  else none

/-- R70, R71: the transfers that a list of micro-ops makes when it starts with these levels and no drive fails. -/
def transfersOf (m : BusMode) : Bool → Bool → Byte → List MicroOp → List Transfer
  | _, _, _, [] => []
  | _, e, d, .drvRS l :: rest => transfersOf m l e d rest
  | rs, e, d, .drvE l :: rest =>
    (if e && !l then [⟨rs, d⟩] else []) ++ transfersOf m rs l d rest
  | rs, e, _, .drvD v :: rest => transfersOf m rs e (onDataLines m v) rest
  | rs, e, d, .wait _ :: rest => transfersOf m rs e d rest

end Sys2Proof.Machine
end

