-- ==== Sys2Proof/Machine/Flags.lean ====
section
/-! DEFINITION. The engine's flags and its status port: `cmd_ready` (R45), the uninitialized-use check (R243), and
`STATUS`, `ST_COLUMNS` and `ST_ROWS` (R39). -/

namespace Sys2Proof.Machine

/-- R240: the code of a cause; 0 is NONE, and 7 to 15 are never raised. -/
def Cause.code : Cause → Nibble
  | .rowRange => 1#4
  | .rowTable => 2#4
  | .addrOverflow => 3#4
  | .pinDrive => 4#4
  | .illegalOp => 5#4
  | .uninitUse => 6#4

/-- What the environment does in the cycle that begins now. -/
def currentDraw (s : State) : Draw :=
  match s.draws with
  | [] => Draw.quiet
  | d :: _ => d

/-- R45: `busy = 0` and `fault = 0`. -/
def idle (s : State) : Bool := !s.busy && !s.fault

/-- R45, R280: the output `cmd_ready`, which is 0 while `rst_n` is 0. -/
def cmdReady (s : State) : Bool := (currentDraw s).rstN && idle s

/-- R45: `cmd_word` when `cmd_valid` is 1: the host holds the first word of its list on the port (log 10). -/
def presented (s : State) : Option CmdWord :=
  if (currentDraw s).hostIdle then none else s.host.head?

/-- R243: the commands that the uninitialized-use check concerns: CLEAR, SET_CURSOR, PRINT_CHAR, PRINT_END. -/
def displayOp (op : Nibble) : Bool := op == 0x2#4 || op == 0x3#4 || op == 0x4#4 || op == 0x5#4

/-- R243: the uninitialized-use check. -/
def uninitTrap (s : State) : Bool := s.cfg.trapUninit && s.initState == .uninit && displayOp s.curOp

/-- R39: STATUS[7]. -/
def modeBit : BusMode → Bool
  | .fourBit => false
  | .eightBit => true

/-- R39: STATUS[1]. -/
def readyBit : InitState → Bool
  | .uninit => false
  | .ready => true

/-- R39: STATUS[11:8], which reads 0 while `fault` is 0. -/
def faultOpField (s : State) : Nibble := if s.fault then s.faultOp else 0#4

/-- R39: the status word, field by field; bits 15:12 are 0. -/
def status (s : State) : BitVec 16 :=
  (faultOpField s).setWidth 16 <<< 8 ||| (BitVec.ofBool (modeBit s.cfg.busMode)).setWidth 16 <<< 7 |||
    s.cause.setWidth 16 <<< 3 ||| (BitVec.ofBool s.fault).setWidth 16 <<< 2 |||
    (BitVec.ofBool (readyBit s.initState)).setWidth 16 <<< 1 ||| (BitVec.ofBool s.busy).setWidth 16

/-- R39: `ST_COLUMNS`. -/
def stColumns (s : State) : Byte := s.columns

/-- R39: `ST_ROWS`. -/
def stRows (s : State) : Byte := s.rows

/-- R45, R211, R212: what a completed command answers. -/
def responseData (s : State) : Byte :=
  if s.curOp = 0x6#4 then s.columns else if s.curOp = 0x7#4 then s.rows else 0#8

end Sys2Proof.Machine
end

