-- ==== Sys2Proof/Machine/Ops.lean ====
section
/-! DEFINITION. The named operations over the engine's registers: fault entry (R246) and reset (R249, R280), the
acceptance of a command (R45, R244), the cycles of the micro-ops (R170 to R174) and completion (R34, R152). -/

namespace Sys2Proof.Machine

/-! Faults. -/

/-- R246: fault entry with cause `c` during the command in `curOp`. -/
def raiseFault (c : Cause) (s : State) : State :=
  { s with
    fault := true, cause := Cause.code c, faultOp := s.curOp,
    busy := false, seq := [], upc := 0, timer := 0,
    rspValid := true, rspErr := true, rspData := (Cause.code c).setWidth 8 }

/-- R249, R280: a reset edge puts every element of R44's table to its reset value; it is the only way out of the fault
state. What has been observed, the agents beside the engine and the build stay. -/
def resetEngine (s : State) : State :=
  { s with
    rsQ := false, eQ := false, dQ := 0, columns := 0, rows := 0, initState := .uninit,
    busy := false, curOp := 0, argA := 0, argB := 0, seq := [], upc := 0, timer := 0,
    fault := false, cause := 0, faultOp := 0, rspValid := false, rspData := 0, rspErr := false }

/-! Acceptance of a command. -/

/-- R45: the accepted command's fields are latched. -/
def latchCommand (op : Nibble) (a b : Byte) (s : State) : State := { s with curOp := op, argA := a, argB := b }

/-- R244: the last line of `accept`, with the expansion `l`. -/
def startSequence (l : List MicroOp) (s : State) : State := { s with seq := l, upc := 0, busy := true }

/-- R140: BEGIN stores the geometry. -/
def storeGeometry (columns rows : Byte) (s : State) : State := { s with columns := columns, rows := rows }

/-- R45: a command is accepted when `busy` and `fault` are 0, and `body` says what its acceptance does; else it is not
accepted, and nothing happens. -/
def acceptCommand (op : Nibble) (a b : Byte) (body : State → State) (s : State) : State :=
  if idle s then body (latchCommand op a b s) else s

/-- R243, R244: the uninitialized-use check before `body`. -/
def checkUninit (body : State → State) (s : State) : State :=
  if uninitTrap s then raiseFault .uninitUse s else body s

/-! The cycles of a command. -/

/-- R71: a micro-op enters the pin trace in the cycle that runs now. -/
def recordMicro (m : MicroOp) (s : State) : State := { s with trace := s.trace ++ [⟨m, s.now⟩] }

/-- R34: the micro-op at `upc` has completed. -/
def advance (s : State) : State := { s with upc := s.upc + 1 }

/-- R70: a transfer enters the transfer list. -/
def recordTransfer (t : Transfer) (s : State) : State := { s with transfers := s.transfers ++ [t] }

/-- R170: `rs_q <- l`. -/
def driveRS (l : Bool) (s : State) : State := { s with rsQ := l }

/-- R171: `e_q <- l`. -/
def driveE (l : Bool) (s : State) : State := { s with eQ := l }

/-- R172: `d_q <- v[N_DATA-1:0]`. -/
def driveD (v : Byte) (s : State) : State := { s with dQ := onDataLines s.cfg.busMode v }

/-- R70: a drive of E to `l` is a high to low edge. -/
def fallingEdge (l : Bool) (s : State) : Bool := s.eQ && !l

/-- One free value of the engine has been used. -/
def useFree (s : State) : State := { s with freeIdx := s.freeIdx + 1 }

/-- R174: a failed drive of RS leaves it at any level; then PIN_DRIVE (R242). -/
def failRS (s : State) : State :=
  raiseFault .pinDrive (useFree (driveRS (Config.failedLevel s.freeIdx) s))

/-- R174: a failed drive of the data lines leaves them at any level; then PIN_DRIVE. -/
def failD (s : State) : State :=
  raiseFault .pinDrive (useFree (driveD (Config.failedData s.freeIdx) s))

/-- R174: the transfer that a failed drive of E may make: E was high, so the module may see it fall (log 7). -/
def failedLatch (s : State) : State :=
  if s.eQ && Config.failedLatch s.freeIdx then recordTransfer ⟨s.rsQ, s.dQ⟩ s else s

/-- R174: a failed drive of E leaves it at any level, with or without a transfer; then PIN_DRIVE. -/
def failE (s : State) : State :=
  raiseFault .pinDrive (useFree (driveE (Config.failedLevel s.freeIdx) (failedLatch s)))

/-- What a wait's first cycle loads: R35's value, or at least 1 where the environment holds the wait (R13, log 6). -/
def firstLoad (hold : Bool) (n : Nat) : Nat := if hold then max 1 n else n

/-- R35: the timer register. -/
def setTimer (n : Nat) (s : State) : State := { s with timer := n }

/-- R35, R173: one cycle of `WAIT(t)`. The counter is 0 in the first cycle, which loads it, and not 0 in a later one,
which counts it down; the cycle that leaves it at 0 is the last. A held cycle does not count (R13). -/
def waitCycle (t : Delay) (hold : Bool) (s : State) : State :=
  if s.timer = 0 then
    if firstLoad hold (timerLoad s.cfg t) = 0 then advance (recordMicro (.wait t) s)
    else setTimer (firstLoad hold (timerLoad s.cfg t)) (recordMicro (.wait t) s)
  else if hold then s
  else if s.timer = 1 then advance (setTimer 0 s)
  else setTimer (s.timer - 1) s

/-- R33, R152: what completion makes of the initialization state. -/
def initAfter (op : Nibble) (i : InitState) : InitState := if op = 0x1#4 then .ready else i

/-- R34, R45, R152: completion of the command in `curOp`. -/
def completeCommand (s : State) : State :=
  { s with
    busy := false, initState := initAfter s.curOp s.initState,
    rspValid := true, rspErr := false, rspData := responseData s }

/-! The clock. -/

/-- What every clock edge does beside its event: it counts, the environment's draw is used up, and a response is
valid for one cycle only (R45). -/
def beginCycle (s : State) : State := { s with now := s.now + 1, draws := s.draws.tail, rspValid := false }

/-- The host takes the accepted word off the port (R291). -/
def takeCommand (s : State) : State := { s with host := s.host.tail }

end Sys2Proof.Machine
end

