-- ==== Sys2Proof/Machine/Lcd.lean ====
section
/-! DEFINITION. The LCD module on the far side of the pins (R41; 95_test_vectors.md §4, general knowledge: log 9): how it
assembles bus words from transfers, and the operations of its instructions. The engine reads none of it. -/

namespace Sys2Proof.Machine

/-- The state with another module. -/
def withLcd (l : Lcd) (s : State) : State := { s with lcd := l }

/-- I6, I8, I21: any state of the module, drawn from the free values; `wakes` is kept by the caller. -/
def anyLcd (wakes : Nat) (l : Lcd) : Lcd where
  phase := .unknown
  wakes := wakes
  ddram := ddramFill (Config.lcdByte l.freeIdx) ddramSize []
  ac := Config.lcdAddr l.freeIdx
  twoLine := Config.lcdFlag l.freeIdx 0
  displayOn := Config.lcdFlag l.freeIdx 1
  cursorOn := Config.lcdFlag l.freeIdx 2
  blinkOn := Config.lcdFlag l.freeIdx 3
  increment := Config.lcdFlag l.freeIdx 4
  shift := Config.lcdFlag l.freeIdx 5
  font := Config.lcdFlag l.freeIdx 6
  freeIdx := l.freeIdx + 1

/-- The module's state becomes any value (R213, R281, R294). -/
def scrambleLcd (s : State) : State := withLcd (anyLcd 0 s.lcd) s

/-- R144: the wake-up value of the init phase, 0x3 or 0x30 with RS low. -/
def isWake (m : BusMode) (t : Transfer) : Bool :=
  !t.rs && t.value == (match m with | .fourBit => 0x03#8 | .eightBit => 0x30#8)

/-- The number of latest transfers that were wake-up values, up to 3. -/
def nextWakes (m : BusMode) (t : Transfer) (wakes : Nat) : Nat := if isWake m t then min 3 (wakes + 1) else 0

/-- One whole value of the bus as a word of the opcode table: in FOUR_BIT a lone nibble, in EIGHT_BIT a byte. -/
def loneWord (m : BusMode) (t : Transfer) : Code :=
  match m with
  | .fourBit => .nibble (nibbleWord t.rs (t.value.setWidth 4))
  | .eightBit => .byte (busWord t.rs t.value)

/-- What a transfer is to the module. -/
inductive Received where
  /-- The high nibble of a pair. -/
  | half (v : Nibble)
  /-- A whole word, to be decoded as one of the init phase or not. -/
  | word (initPhase : Bool) (c : Code)
  /-- Nothing the spec gives a reading of. -/
  | garbled
  deriving DecidableEq, Repr

/-- How the module takes a transfer. The third wake-up value in a row forces the 8-bit interface from any state (R144,
I3); before that an unknown interface gives no reading; in the 8-bit interface a value is a word (the first three wake-up
values are those of the init phase); in the 4-bit interface two values make a byte, high nibble first (R79). -/
def classify (m : BusMode) (t : Transfer) (l : Lcd) : Received :=
  if nextWakes m t l.wakes = 3 then .word (decide (l.wakes < 3)) (loneWord m t)
  else match l.phase, m with
    | .unknown, _ => .garbled
    | .eight, _ => .word (decide (l.wakes < 3)) (loneWord m t)
    | .four none, .fourBit => .half (t.value.setWidth 4)
    | .four (some h), .fourBit => .word false (.byte (busWord t.rs (pairByte h (t.value.setWidth 4))))
    | .four _, .eightBit => .garbled

/-- R213, I6: the engine is UNINIT and the command that runs is not BEGIN. Between a reset and the next BEGIN the
module's reaction to a transfer is not given, whatever its state was before the reset (D40). -/
def beforeBegin (s : State) : Bool := decide (s.initState = .uninit) && s.curOp != 0x1#4

/-- How the module takes a transfer of the running command: it has no reading before BEGIN, and else `classify`'s. -/
def reading (t : Transfer) (s : State) : Received :=
  if beforeBegin s then .garbled else classify s.cfg.busMode t s.lcd

/-- The module with a new count of wake-up values. -/
def setWakes (w : Nat) (s : State) : State := withLcd { s.lcd with wakes := w } s

/-- The module holds the high nibble of a pair. -/
def storeHalf (v : Nibble) (s : State) : State := withLcd { s.lcd with phase := .four (some v) } s

/-- The pending high nibble is used up (95 §4). -/
def dropHalf : LcdPhase → LcdPhase
  | .unknown => .unknown
  | .eight => .eight
  | .four _ => .four none

/-- A transfer has completed a word: the count of wake-up values is `w`, and no half is pending. -/
def takeWord (w : Nat) (s : State) : State :=
  withLcd { s.lcd with wakes := w, phase := dropHalf s.lcd.phase } s

/-- A transfer without a reading, or whose effect the spec leaves open: the module's state becomes any value, but for the
count of wake-up values, which is a fact about the transfers. -/
def garbleLcd (s : State) : State := withLcd (anyLcd s.lcd.wakes s.lcd) s

/-! The operations of the module's instructions. -/

/-- The function set: DL as the interface width, N and F (R110). -/
def lcdFunctionSet (phase : LcdPhase) (twoLine font : Bool) (s : State) : State :=
  withLcd { s.lcd with phase := phase, twoLine := twoLine, font := font } s

/-- A function set by a lone nibble: N and F come from unconnected lines, so each is a free value (R110, I13). -/
def lcdNibbleSet (phase : LcdPhase) (s : State) : State :=
  withLcd { s.lcd with
    phase := phase
    twoLine := Config.lcdFlag s.lcd.freeIdx 0
    font := Config.lcdFlag s.lcd.freeIdx 6
    freeIdx := s.lcd.freeIdx + 1 } s

/-- 0x0C: display on, cursor off, blink off. -/
def lcdDisplayControl (display cursor blink : Bool) (s : State) : State :=
  withLcd { s.lcd with displayOn := display, cursorOn := cursor, blinkOn := blink } s

/-- 0x01: every address holds the blank, and the address counter is 0. -/
def lcdClear (s : State) : State := withLcd { s.lcd with ddram := [], ac := 0 } s

/-- 0x06: the entry mode. -/
def lcdEntryMode (increment shift : Bool) (s : State) : State :=
  withLcd { s.lcd with increment := increment, shift := shift } s

/-- I5: the addresses that exist on the module in its line mode. -/
def lcdValidAddr (twoLine : Bool) (a : DdramAddr) : Bool :=
  if twoLine then a.toNat < 0x28 || (0x40 ≤ a.toNat && a.toNat < 0x68) else a.toNat < 0x50

/-- `0x80 | a`: the address counter takes the low 7 bits; with an address outside the valid ranges the module's state is
any value (I21). DESIGN CHOICE (log 17): after a merge of address bit 7 (R109) the byte is that of the address without
that bit, and the module takes it as that address, as 95 §4 and P4 have it, where I21 says any value. -/
def lcdSetAddr (a : DdramAddr) (s : State) : State :=
  if lcdValidAddr s.lcd.twoLine a then withLcd { s.lcd with ac := a } s else garbleLcd s

/-- The counter after a character: the next address; past the end of a row, and without increment, the module's own
(R208), so a free value. -/
def lcdNextAddr (l : Lcd) : DdramAddr :=
  if l.increment && lcdValidAddr l.twoLine (l.ac + 1) then l.ac + 1 else Config.lcdAddr l.freeIdx

/-- A character byte: written at the address counter, which then moves. -/
def lcdWriteData (ch : Byte) (s : State) : State :=
  withLcd { s.lcd with
    ddram := ddramWrite s.lcd.ddram s.lcd.ac.toNat ch
    ac := lcdNextAddr s.lcd
    freeIdx := s.lcd.freeIdx + 1 } s

end Sys2Proof.Machine
end

