-- ==== Sys2Proof/Machine/Cycle.lean ====
section
/-! DEFINITION. What one rising edge of `clk` does, up to the instruction it runs: reset (R280, R281), the micro-op in
progress (R34, R170 to R174), completion, or the acceptance of a command (R45); and how the module takes the transfer of
a falling E. `step` only calls it. -/

namespace Sys2Proof.Machine

/-- What the edge comes to. -/
inductive Cycle where
  /-- A next state, with no instruction run. -/
  | goes (s : State)
  /-- An instruction runs, at this state. -/
  | runs (i : Instr) (s : State)
  | stops (f : Fault)
  | refuses (r : Refusal)
  deriving DecidableEq, Repr

/-- R281: the transfer that reset may make when it drops a high E; `s` is the state before the reset values. -/
def resetTransfer (s : State) : List Transfer :=
  if s.eQ then
    match Config.resetLatch s.freeIdx with
    | .nothing => []
    | .oldLevels => [⟨s.rsQ, s.dQ⟩]
    | .newLevels => [⟨false, 0⟩]
  else []

/-- R281: the transfer list after the reset edge. -/
def resetObserved (s : State) : State :=
  { s with transfers := s.transfers ++ resetTransfer s, freeIdx := if s.eQ then s.freeIdx + 1 else s.freeIdx }

/-- I8: a command cut short, or a falling E, leaves the module in any state. -/
def resetDisturbs (s : State) : Bool := s.busy || s.eQ

/-- R280, R281: a reset edge. -/
def resetEdge (s : State) : State :=
  if resetDisturbs s then scrambleLcd (resetEngine (resetObserved s)) else resetEngine (resetObserved s)

/-- How the module takes a transfer: it stores half a pair, or a word is complete and runs, or the transfer has no
reading (`reading`). -/
def receive (t : Transfer) (s : State) : Cycle :=
  match reading t s with
  | .half v => .goes (storeHalf v (setWakes (nextWakes s.cfg.busMode t s.lcd.wakes) s))
  | .garbled => .goes (garbleLcd (setWakes (nextWakes s.cfg.busMode t s.lcd.wakes) s))
  | .word initPhase c =>
    match decode initPhase c with
    | .ok i => .runs i (takeWord (nextWakes s.cfg.busMode t s.lcd.wakes) s)
    | .error _ => .goes (garbleLcd (setWakes (nextWakes s.cfg.busMode t s.lcd.wakes) s))

/-- R171 on a falling edge: the transfer is recorded, E is low, and the micro-op is done. -/
def fallE (s : State) : State := advance (driveE false (recordTransfer ⟨s.rsQ, s.dQ⟩ s))

/-- R170 to R174: one cycle of the micro-op `m`. -/
def runMicro (d : Draw) (m : MicroOp) (s : State) : Cycle :=
  match m with
  | .wait t => .goes (waitCycle t d.hold s)
  | .drvRS l =>
    if d.pinErr then .goes (scrambleLcd (failRS (recordMicro m s)))
    else .goes (advance (driveRS l (recordMicro m s)))
  | .drvD v =>
    if d.pinErr then .goes (scrambleLcd (failD (recordMicro m s)))
    else .goes (advance (driveD v (recordMicro m s)))
  | .drvE l =>
    if d.pinErr then .goes (scrambleLcd (failE (recordMicro m s)))
    else if fallingEdge l s then
      if d.lcdMisses then .goes (fallE (recordMicro m s))
      else receive ⟨s.rsQ, s.dQ⟩ (fallE (recordMicro m s))
    else .goes (advance (driveE l (recordMicro m s)))

/-- R34: one cycle of a busy engine. -/
def microCycle (d : Draw) (s : State) : Cycle :=
  match s.seq[s.upc]? with
  | some m => runMicro d m s
  | none => if s.upc = s.seq.length then .goes (completeCommand s) else .stops .upcBeyondSequence

/-- R45: one cycle of an engine that is not busy: a presented command is accepted unless the engine is faulted. -/
def idleCycle (w : Option CmdWord) (s : State) : Cycle :=
  match w with
  | none => .goes s
  | some w => if idle s then .runs (decodeCommand w) (takeCommand s) else .goes s

/-- One rising edge of the clock. Reset wins over everything (R250). -/
def cycle (s : State) : Cycle :=
  if buildable s.cfg then
    if (currentDraw s).rstN then
      if s.busy then microCycle (currentDraw s) (beginCycle s)
      else idleCycle (presented s) (beginCycle s)
    else .goes (resetEdge (beginCycle s))
  else .refuses .notBuilt

/-! Elaboration. -/

/-- R282, R283: construction gives an engine when its lines are acquired and its build parameters agree, and gives no
engine otherwise. -/
def elaborate (linesAcquired : Bool) (c : Config) : Option State :=
  if linesAcquired && buildable c then some (State.afterReset c) else none

/-! The state in which the next step runs a given word. -/

/-- A host command: the host presents it to an idle engine in a quiet cycle (log 10). -/
def placeCommand (w : CmdWord) (s : State) : State :=
  { s with host := w :: s.host, draws := Draw.quiet :: s.draws, busy := false, fault := false }

/-- The engine is about to drop E with these levels on the pins, as the last micro-op of an expansion, and it is READY,
so that the module's reaction is given (R213). -/
def placeTransfer (t : Transfer) (s : State) : State :=
  { s with
    rsQ := t.rs, dQ := t.value, eQ := true, busy := true, fault := false, initState := .ready,
    seq := [.drvE false], upc := 0, draws := Draw.quiet :: s.draws }

/-- A lone nibble: on a FOUR_BIT bus, to a module in its 8-bit interface (log 10). -/
def placeNibble (w : NibbleWord) (s : State) : State :=
  placeTransfer ⟨w.getLsbD 4, (w.extractLsb' 0 4).setWidth 8⟩
    { s with
      cfg := { s.cfg with busMode := .fourBit, nData := 4 }
      lcd := { s.lcd with phase := .eight } }

/-- A bus byte: whole on an EIGHT_BIT bus, and by its low nibble after its high nibble on a FOUR_BIT bus (log 10). -/
def placeByte (w : ByteWord) (s : State) : State :=
  match s.cfg.busMode with
  | .fourBit =>
    placeTransfer ⟨w.getLsbD 8, (w.extractLsb' 0 4).setWidth 8⟩
      { s with lcd := { s.lcd with phase := .four (some (w.extractLsb' 4 4)), wakes := 0 } }
  | .eightBit =>
    placeTransfer ⟨w.getLsbD 8, w.extractLsb' 0 8⟩ { s with lcd := { s.lcd with phase := .eight, wakes := 3 } }

/-- A word of the opcode table placed where the next step runs it; a number that is no word changes nothing. -/
def placeWord (s : State) (nbits w : Nat) : State :=
  match codeOfBits nbits w with
  | .ok (.host c) => placeCommand c s
  | .ok (.nibble c) => placeNibble c s
  | .ok (.byte c) => placeByte c s
  | .error _ => s

end Sys2Proof.Machine
end

