-- ==== Sys2Proof/Machine/BusWords.lean ====
section
/-! DEFINITION. The bus words (R107), as the LCD module executes them when a transfer completes one (R73; log 1, log 9).
The engine's side of a word, the micro-ops that emit it, is `emission` in Expansion.lean. -/

namespace Sys2Proof.Machine

/-- The lone nibble 0x3: "forces the controller into 8-bit interface mode" (R107). -/
def execInitNibble3 (s : State) : Host.Outcome State Fault Refusal := .next (lcdNibbleSet .eight s)

/-- The lone nibble 0x2: "to switch it into 4-bit mode" (R107). -/
def execSwitchNibble2 (s : State) : Host.Outcome State Fault Refusal := .next (lcdNibbleSet (.four none) s)

/-- The init byte 0x30: "to reset to a known function-set state" (R107): 8-bit interface, one line, F = 0. -/
def execInitByte30 (s : State) : Host.Outcome State Fault Refusal := .next (lcdFunctionSet .eight false false s)

/-- 0x20: function set, 4-bit interface, 1 line, F = 0 (R110). -/
def execFset4Bit1Line (s : State) : Host.Outcome State Fault Refusal :=
  .next (lcdFunctionSet (.four none) false false s)

/-- 0x28: function set, 4-bit interface, 2 lines, F = 0. -/
def execFset4Bit2Line (s : State) : Host.Outcome State Fault Refusal :=
  .next (lcdFunctionSet (.four none) true false s)

/-- 0x30: function set, 8-bit interface, 1 line, F = 0. -/
def execFset8Bit1Line (s : State) : Host.Outcome State Fault Refusal := .next (lcdFunctionSet .eight false false s)

/-- 0x38: function set, 8-bit interface, 2 lines, F = 0. -/
def execFset8Bit2Line (s : State) : Host.Outcome State Fault Refusal := .next (lcdFunctionSet .eight true false s)

/-- 0x0C: display on, cursor off, blink off. -/
def execDisplayControl (s : State) : Host.Outcome State Fault Refusal := .next (lcdDisplayControl true false false s)

/-- 0x01: "rewrites the entire display memory". -/
def execClearDisplay (s : State) : Host.Outcome State Fault Refusal := .next (lcdClear s)

/-- 0x06: "auto-increment address, no display shift". -/
def execEntryMode (s : State) : Host.Outcome State Fault Refusal := .next (lcdEntryMode true false s)

/-- `0x80 | addr`: set DDRAM address. -/
def execSetDdramAddr (addr : DdramAddr) (s : State) : Host.Outcome State Fault Refusal := .next (lcdSetAddr addr s)

/-- A character byte: "The module writes it at its current address" (R73). -/
def execWriteData (ch : Byte) (s : State) : Host.Outcome State Fault Refusal := .next (lcdWriteData ch s)

end Sys2Proof.Machine
end

