-- ==== Sys2Proof/Machine/DisplayOps.lean ====
section
/-! DEFINITION. The display commands (42_display_ops.md). -/

namespace Sys2Proof.Machine

/-- CLEAR (R200). -/
def execClear (ignored : BitVec 16) (s : State) : Host.Outcome State Fault Refusal :=
  .next (acceptCommand 0x2#4 (ignoredA ignored) (ignoredB ignored)
    (checkUninit fun s => startSequence (clearSeq s.cfg.busMode) s) s)

/-- The checks of SET_CURSOR and what follows them (R202, R204). -/
def startSetCursor (column row : Byte) (s : State) : State :=
  match cursorAddr s.rows column row with
  | .error c => raiseFault c s
  | .ok addr => startSequence (setCursorSeq s.cfg.busMode addr) s

/-- SET_CURSOR (R202 to R204). -/
def execSetCursor (column row : Byte) (s : State) : Host.Outcome State Fault Refusal :=
  .next (acceptCommand 0x3#4 column row (checkUninit (startSetCursor column row)) s)

/-- PRINT_CHAR (R207): field A is ignored. -/
def execPrintChar (ignored ch : Byte) (s : State) : Host.Outcome State Fault Refusal :=
  .next (acceptCommand 0x4#4 ignored ch
    (checkUninit fun s => startSequence (printCharSeq s.cfg.busMode ch) s) s)

/-- PRINT_END (R209). -/
def execPrintEnd (ignored : BitVec 16) (s : State) : Host.Outcome State Fault Refusal :=
  .next (acceptCommand 0x5#4 (ignoredA ignored) (ignoredB ignored) (checkUninit (startSequence printEndSeq)) s)

/-- GET_COLUMNS (R211): the expansion is empty, so the next cycle responds; never trapped. -/
def execGetColumns (ignored : BitVec 16) (s : State) : Host.Outcome State Fault Refusal :=
  .next (acceptCommand 0x6#4 (ignoredA ignored) (ignoredB ignored) (startSequence getterSeq) s)

/-- GET_ROWS (R212): as GET_COLUMNS, with `rows` in the response. -/
def execGetRows (ignored : BitVec 16) (s : State) : Host.Outcome State Fault Refusal :=
  .next (acceptCommand 0x7#4 (ignoredA ignored) (ignoredB ignored) (startSequence getterSeq) s)

end Sys2Proof.Machine
end

