-- ==== Sys2Proof/Machine/Initialization.lean ====
section
/-! DEFINITION. The initialization command (40_initialization.md). -/

namespace Sys2Proof.Machine

/-- BEGIN (R140, R244): no acceptance-time fault; the geometry is stored first, and the function-set byte of the
expansion is chosen from the new `rows` (R88). -/
def execLcdBegin (columns rows : Byte) (s : State) : Host.Outcome State Fault Refusal :=
  .next (acceptCommand 0x1#4 columns rows
    (fun s => startSequence (beginSeq s.cfg.busMode rows) (storeGeometry columns rows s)) s)

end Sys2Proof.Machine
end

