-- ==== Sys2Proof/Machine/ReservedOps.lean ====
section
/-! DEFINITION. The reserved commands (R103): each takes the fault ILLEGAL_OP at acceptance. -/

namespace Sys2Proof.Machine

/-- OP 0x0. -/
def execReserved0 (ignored : BitVec 16) (s : State) : Host.Outcome State Fault Refusal :=
  .next (acceptCommand 0x0#4 (ignoredA ignored) (ignoredB ignored) (raiseFault .illegalOp) s)

/-- OP 0x8 to 0xF; the fault records the OP value itself (R36). -/
def execReserved8F (op : Nibble) (ignored : BitVec 16) (s : State) : Host.Outcome State Fault Refusal :=
  .next (acceptCommand op (ignoredA ignored) (ignoredB ignored) (raiseFault .illegalOp) s)

end Sys2Proof.Machine
end

