-- ==== Sys2Proof/Machine/Dispatch.lean ====
section
/-! DEFINITION. One arm per instruction. -/

namespace Sys2Proof.Machine

def exec (i : Instr) (s : State) : Host.Outcome State Fault Refusal :=
  match i with
  | .lcdBegin columns rows => Sys2Proof.Machine.execLcdBegin columns rows s
  | .clear ignored => Sys2Proof.Machine.execClear ignored s
  | .setCursor column row => Sys2Proof.Machine.execSetCursor column row s
  | .printChar ignored ch => Sys2Proof.Machine.execPrintChar ignored ch s
  | .printEnd ignored => Sys2Proof.Machine.execPrintEnd ignored s
  | .getColumns ignored => Sys2Proof.Machine.execGetColumns ignored s
  | .getRows ignored => Sys2Proof.Machine.execGetRows ignored s
  | .reserved0 ignored => Sys2Proof.Machine.execReserved0 ignored s
  | .reserved8F op ignored => Sys2Proof.Machine.execReserved8F op ignored s
  | .initNibble3 => Sys2Proof.Machine.execInitNibble3 s
  | .switchNibble2 => Sys2Proof.Machine.execSwitchNibble2 s
  | .initByte30 => Sys2Proof.Machine.execInitByte30 s
  | .fset4Bit1Line => Sys2Proof.Machine.execFset4Bit1Line s
  | .fset4Bit2Line => Sys2Proof.Machine.execFset4Bit2Line s
  | .fset8Bit1Line => Sys2Proof.Machine.execFset8Bit1Line s
  | .fset8Bit2Line => Sys2Proof.Machine.execFset8Bit2Line s
  | .displayControl => Sys2Proof.Machine.execDisplayControl s
  | .clearDisplay => Sys2Proof.Machine.execClearDisplay s
  | .entryMode => Sys2Proof.Machine.execEntryMode s
  | .setDdramAddr addr => Sys2Proof.Machine.execSetDdramAddr addr s
  | .writeData ch => Sys2Proof.Machine.execWriteData ch s

end Sys2Proof.Machine
end

