-- ==== Sys2Proof/Machine/Step.lean ====
section
/-! DEFINITION. The step: one rising edge of `clk` (R42). -/

namespace Sys2Proof.Machine

/-- The edge's event, and the instruction it runs if there is one: a host command in the cycle that accepts it, a bus
word in the cycle whose transfer completes it. -/
def step (s : State) : Host.Outcome State Fault Refusal :=
  match cycle s with
  | .goes s' => .next s'
  | .runs i s' => exec i s'
  | .stops f => .fault f
  | .refuses r => .refused r

/-- The state whose next step runs the word `w` of the opcode table. -/
def State.withFetchWord (s : State) (nbits w : Nat) : State := placeWord s nbits w

end Sys2Proof.Machine
end

