-- ==== Sys2Proof/Machine/Assembler.lean ====
section
/-! DEFINITION. The textual form of host commands (R120) and the pseudo-instruction PRINT (R121), over lists of
characters. DESIGN CHOICE (log 11): blanks may stand around the operands, the comma and at the end of a line. -/

namespace Sys2Proof.Machine

/-- R120, R121: a character stands for its code point modulo 256. -/
def charByte (c : Char) : Byte := BitVec.ofNat 8 c.toNat

/-- R121: `PRINT` with a text: one PRINT_CHAR for each character, then one PRINT_END. -/
def printWords (text : List Char) : List CmdWord :=
  text.map (fun c => commandWord 0x4#4 0x00#8 (charByte c)) ++ [commandWord16 0x5#4 0x0000#16]

/-- What follows a fixed word at the start of a line. -/
def dropWord : List Char → List Char → Option (List Char)
  | [], rest => some rest
  | _ :: _, [] => none
  | a :: word, b :: rest => if a = b then dropWord word rest else none

def skipBlanks : List Char → List Char
  | [] => []
  | c :: rest => if c = ' ' then skipBlanks rest else c :: rest

/-- The value of a decimal digit. -/
def decDigit (c : Char) : Option Nat := if '0' ≤ c ∧ c ≤ '9' then some (c.toNat - '0'.toNat) else none

/-- The value of a hexadecimal digit. -/
def hexDigit (c : Char) : Option Nat :=
  if 'a' ≤ c ∧ c ≤ 'f' then some (c.toNat - 'a'.toNat + 10)
  else if 'A' ≤ c ∧ c ≤ 'F' then some (c.toNat - 'A'.toNat + 10)
  else decDigit c

/-- The digits at the start of a line, as a number after `acc`, and the rest of the line. -/
def readDigits (digit : Char → Option Nat) (base acc : Nat) : List Char → Nat × List Char
  | [] => (acc, [])
  | c :: rest =>
    match digit c with
    | some d => readDigits digit base (acc * base + d) rest
    | none => (acc, c :: rest)

/-- A number with at least one digit, at most 255 (R120: more is an assembly error). -/
def readNumber (digit : Char → Option Nat) (base : Nat) : List Char → Option (Byte × List Char)
  | [] => none
  | c :: rest =>
    match digit c with
    | none => none
    | some d =>
      if (readDigits digit base d rest).1 ≤ 255
      then some (BitVec.ofNat 8 (readDigits digit base d rest).1, (readDigits digit base d rest).2)
      else none

/-- R120: an operand is a decimal number, a hexadecimal number after `0x`, or a character literal. -/
def readOperand : List Char → Option (Byte × List Char)
  | '0' :: 'x' :: rest => readNumber hexDigit 16 rest
  | '\'' :: c :: '\'' :: rest => some (charByte c, rest)
  | line => readNumber decDigit 10 line

/-- The end of a line, with blanks before it. -/
def endOfLine (line : List Char) : Option Unit := if skipBlanks line = [] then some () else none

/-- A blank, then the operands. -/
def startOperands : List Char → Option (List Char)
  | ' ' :: rest => some (skipBlanks rest)
  | _ => none

def oneOperand (op : Nibble) (line : List Char) : Option CmdWord := do
  let line ← startOperands line
  let (b, line) ← readOperand line
  endOfLine line
  pure (commandWord op 0x00#8 b)

def twoOperands (op : Nibble) (line : List Char) : Option CmdWord := do
  let line ← startOperands line
  let (a, line) ← readOperand line
  let line ← dropWord [','] (skipBlanks line)
  let (b, line) ← readOperand (skipBlanks line)
  endOfLine line
  pure (commandWord op a b)

def noOperand (op : Nibble) (line : List Char) : Option CmdWord := do
  endOfLine line
  pure (commandWord16 op 0x0000#16)

/-- The text of a PRINT line, between its first and its last double quote. DESIGN CHOICE (log 11; R121 is silent):
blanks may follow the last quote, as they may at the end of every line, and nothing else may. -/
def quotedText (line : List Char) : Option (List Char) := do
  let line ← startOperands line
  let inner ← dropWord ['"'] line
  match skipBlanks inner.reverse with
  | '"' :: text => pure text.reverse
  | _ => none

/-- R120, R121: one line of assembly as the words it stands for. -/
def assembleLine (line : List Char) : Option (List CmdWord) :=
  match dropWord ['B', 'E', 'G', 'I', 'N'] line with
  | some rest => (twoOperands 0x1#4 rest).map ([·])
  | none =>
  match dropWord ['C', 'L', 'E', 'A', 'R'] line with
  | some rest => (noOperand 0x2#4 rest).map ([·])
  | none =>
  match dropWord ['S', 'E', 'T', '_', 'C', 'U', 'R', 'S', 'O', 'R'] line with
  | some rest => (twoOperands 0x3#4 rest).map ([·])
  | none =>
  match dropWord ['P', 'R', 'I', 'N', 'T', '_', 'C', 'H', 'A', 'R'] line with
  | some rest => (oneOperand 0x4#4 rest).map ([·])
  | none =>
  match dropWord ['P', 'R', 'I', 'N', 'T', '_', 'E', 'N', 'D'] line with
  | some rest => (noOperand 0x5#4 rest).map ([·])
  | none =>
  match dropWord ['G', 'E', 'T', '_', 'C', 'O', 'L', 'U', 'M', 'N', 'S'] line with
  | some rest => (noOperand 0x6#4 rest).map ([·])
  | none =>
  match dropWord ['G', 'E', 'T', '_', 'R', 'O', 'W', 'S'] line with
  | some rest => (noOperand 0x7#4 rest).map ([·])
  | none =>
  match dropWord ['P', 'R', 'I', 'N', 'T'] line with
  | some rest => (quotedText rest).map printWords
  | none => none

end Sys2Proof.Machine
end

