-- ==== Sys2Proof/Safety.lean ====
section
/-! DEFINITION. What counts as a good state: the invariants that the spec's prose gives the engine, for the statements
about every step. -/

namespace Sys2Proof.Machine

/-- The level of E after a micro-op that succeeds. -/
def levelE (e : Bool) : MicroOp → Bool
  | .drvE l => l
  | .drvRS _ => e
  | .drvD _ => e
  | .wait _ => e

/-- The level of RS after a micro-op that succeeds. -/
def levelRS (rs : Bool) : MicroOp → Bool
  | .drvRS l => l
  | .drvE _ => rs
  | .drvD _ => rs
  | .wait _ => rs

/-- The levels of the data lines after a micro-op that succeeds (R172). -/
def levelD (m : BusMode) (d : Byte) : MicroOp → Byte
  | .drvD v => onDataLines m v
  | .drvRS _ => d
  | .drvE _ => d
  | .wait _ => d

/-- The level of E after a list of micro-ops, from a low E. -/
def eAfter (l : List MicroOp) : Bool := l.foldl levelE false

/-- R34, R88: a busy engine runs the expansion of the command it accepted, and its position lies within it. -/
def SequencerOk (s : State) : Prop :=
  s.upc ≤ s.seq.length ∧ s.seq.length ≤ 104 ∧
  (s.busy = true → expansionOf s.cfg.busMode s.rows s.curOp s.argA s.argB = some s.seq)

/-- R142, R176: E is low between commands, and within one it is where the micro-ops so far have put it. -/
def EnableOk (s : State) : Prop :=
  (s.busy = true → s.eQ = eAfter (s.seq.take s.upc)) ∧
  (s.busy = false → s.fault = false → s.eQ = false)

/-- R35: the timer fits its register and runs only inside a wait. -/
def TimerFits (s : State) : Prop :=
  s.timer < 2 ^ s.cfg.timerW ∧ (s.timer ≠ 0 → s.busy = true ∧ ∃ t, s.seq[s.upc]? = some (.wait t))

/-- R36, R240, I15: a faulted engine runs nothing, the cause is one of the six exactly in the fault state, and
`fault_op` is 0 outside it. -/
def FaultOk (s : State) : Prop :=
  (s.fault = true → s.busy = false) ∧ s.cause.toNat ≤ 6 ∧
  (s.fault = true ↔ s.cause ≠ 0#4) ∧ (s.fault = false → s.faultOp = 0#4)

/-- R31, R81: the engine drives N_DATA lines: in FOUR_BIT the upper four bits of `d_q` are 0. -/
def PinsOk (s : State) : Prop := onDataLines s.cfg.busMode s.dQ = s.dQ

/-- R206: before a BEGIN has been accepted the geometry is the reset one. -/
def GeometryOk (s : State) : Prop :=
  s.initState = .uninit → s.fault = false → (s.busy = false ∨ s.curOp ≠ 0x1#4) → s.rows = 0#8 ∧ s.columns = 0#8

/-- R45: a response comes when the command is over. -/
def ResponseOk (s : State) : Prop := s.rspValid = true → s.busy = false

/-- The module's memory is in canonical form, and its count of wake-up values is at most 3. -/
def LcdOk (s : State) : Prop := ddramWf s.lcd.ddram = true ∧ s.lcd.wakes ≤ 3

/-- The invariant of the engine that was built. -/
structure Inv (s : State) : Prop where
  built     : buildable s.cfg = true
  sequencer : SequencerOk s
  enable    : EnableOk s
  timer     : TimerFits s
  fault     : FaultOk s
  pins      : PinsOk s
  geometry  : GeometryOk s
  response  : ResponseOk s
  lcd       : LcdOk s

/-- The step does not stop the machine. -/
def Proceeds (s : State) : Prop := ∃ t, step s = .next t

/-- The environment does nothing special for the next `n` cycles. -/
def QuietFor (n : Nat) (s : State) : Prop := ∀ d ∈ s.draws.take n, d = Draw.quiet

/-- `n` steps. -/
def runs : Nat → State → Host.Outcome State Fault Refusal
  | 0, s => .next s
  | n + 1, s =>
    match step s with
    | .next t => runs n t
    | .fault r => .fault r
    | .refused r => .refused r

/-- R71: the pin trace of a list of micro-ops, the first of which starts in cycle `n` and the others each when the one
before it is done. -/
def traceFrom (c : Config) (n : Nat) : List MicroOp → List TraceEntry
  | [] => []
  | m :: rest => ⟨m, n⟩ :: traceFrom c (n + microCycles c m) rest

/-- What the engine shows and does: everything but the module and the module's draws. -/
def engineView (s : State) : State := { s with lcd := Lcd.powerUp }

end Sys2Proof.Machine
end

