-- ==== Sys2Proof/Certificates/Slice0/Obligations.lean ====
section
/-! DEFINITION. The statements for the provers. Each docstring names the rule of spec/ it formalises, or the log entry
of a choice of the model that it rests on. -/

open Sys2Proof Sys2Proof.Machine

/-! Encoding. -/

/-- Every instruction of the opcode table, with every value of its operands, decodes from its own word. The two rows of
the word 0x030 are told apart by the init phase (log 2). -/
def Obligations.EncodedInstructionDecodesBack : Prop :=
  ∀ i : Instr, i.wellFormed = true → decode i.inInitPhase (encode i) = .ok i

/-- Every word that decodes is the word of the instruction it gives, which is well-formed: no bit of a word is dropped. -/
def Obligations.DecodedWordEncodesBack : Prop :=
  ∀ (p : Bool) (c : Code) (i : Instr), decode p c = .ok i → encode i = c ∧ i.wellFormed = true

/-- R102: the opcode map, complete over the 16 values of OP, with the operand fields of R101. -/
def Obligations.OpcodeMapIsComplete : Prop :=
  ∀ (op : Nibble) (a b : Byte),
    (op = 0x0#4 → decodeCommand (commandWord op a b) = .reserved0 (argWord a b)) ∧
    (op = 0x1#4 → decodeCommand (commandWord op a b) = .lcdBegin a b) ∧
    (op = 0x2#4 → decodeCommand (commandWord op a b) = .clear (argWord a b)) ∧
    (op = 0x3#4 → decodeCommand (commandWord op a b) = .setCursor a b) ∧
    (op = 0x4#4 → decodeCommand (commandWord op a b) = .printChar a b) ∧
    (op = 0x5#4 → decodeCommand (commandWord op a b) = .printEnd (argWord a b)) ∧
    (op = 0x6#4 → decodeCommand (commandWord op a b) = .getColumns (argWord a b)) ∧
    (op = 0x7#4 → decodeCommand (commandWord op a b) = .getRows (argWord a b)) ∧
    (8 ≤ op.toNat → decodeCommand (commandWord op a b) = .reserved8F op (argWord a b))

/-- A few words written out from the encodings of R100, R107 and R120, each with the instruction it stands for. -/
def Obligations.WrittenOutWordsDecode : Prop :=
  decodeTableWord 24 0x11002 = some (.lcdBegin 16 2) ∧
  decodeTableWord 24 0x30F01 = some (.setCursor 15 1) ∧
  decodeTableWord 24 0x47E41 = some (.printChar 0x7E 0x41) ∧
  decodeTableWord 24 0x2FFFF = some (.clear 0xFFFF) ∧
  decodeTableWord 24 0xFFFFF = some (.reserved8F 0xF 0xFFFF) ∧
  decodeTableWord 8 0b00011 = some .initNibble3 ∧
  decodeTableWord 16 0b000101000 = some .fset4Bit2Line ∧
  decodeTableWord 16 0b011000000 = some (.setDdramAddr 0x40) ∧
  decodeTableWord 16 0b101001000 = some (.writeData 0x48) ∧
  decodeTableWord 16 0b000000010 = none

/-- R107, R111: what the engine puts on the bus is closed: in EIGHT_BIT every transfer of every expansion is a word of
the opcode table; in FOUR_BIT the transfers are lone nibbles of the table, then the high and low nibbles of bytes of
the table (R79). -/
def Obligations.EveryTransferIsATableWord : Prop :=
  ∀ (rows a b d : Byte) (op : Nibble) (rs : Bool) (l : List MicroOp),
    (expansionOf .eightBit rows op a b = some l →
      ∀ t ∈ transfersOf .eightBit rs false d l, ∃ p i, decodeByte p (busWord t.rs t.value) = .ok i) ∧
    (expansionOf .fourBit rows op a b = some l →
      ∃ lone bytes : List Transfer,
        transfersOf .fourBit rs false d l =
          lone ++ bytes.flatMap (fun t => [⟨t.rs, highNibble t.value⟩, ⟨t.rs, lowNibble t.value⟩]) ∧
        (∀ t ∈ lone, ∃ i, decodeNibble (nibbleWord t.rs (t.value.setWidth 4)) = .ok i) ∧
        ∀ t ∈ bytes, ∃ p i, decodeByte p (busWord t.rs t.value) = .ok i)

/-! Acceptance of commands. -/

/-- R140, R244: BEGIN is accepted in every state of an idle engine and has no acceptance-time fault: it stores the
geometry and starts the expansion built from the new `rows`. -/
def Obligations.BeginIsAccepted : Prop :=
  ∀ (s : State) (columns rows : Byte), s.busy = false → s.fault = false →
    exec (.lcdBegin columns rows) s = .next { s with
      curOp := 0x1, argA := columns, argB := rows, columns := columns, rows := rows,
      seq := beginSeq s.cfg.busMode rows, upc := 0, busy := true }

/-- R200, R207, R209, R244: CLEAR, PRINT_CHAR and PRINT_END, where the uninitialized-use check does not hold, start
their expansions, and nothing else changes but the latched command. -/
def Obligations.TextCommandsAreAccepted : Prop :=
  ∀ (s : State) (ab : BitVec 16) (a ch : Byte), s.busy = false → s.fault = false →
    (s.cfg.trapUninit = false ∨ s.initState = .ready) →
    exec (.clear ab) s = .next { s with
      curOp := 0x2, argA := ab.extractLsb' 8 8, argB := ab.extractLsb' 0 8,
      seq := [.drvRS false, .wait .tRs] ++
        (match s.cfg.busMode with
          | .fourBit => writeNibble 0x0 ++ writeNibble 0x1
          | .eightBit => writeBits 0x01) ++ [.wait .tClear],
      upc := 0, busy := true } ∧
    exec (.printChar a ch) s = .next { s with
      curOp := 0x4, argA := a, argB := ch,
      seq := send s.cfg.busMode ch true ++ [.wait .tChar], upc := 0, busy := true } ∧
    exec (.printEnd ab) s = .next { s with
      curOp := 0x5, argA := ab.extractLsb' 8 8, argB := ab.extractLsb' 0 8,
      seq := [.wait .tPrintEnd], upc := 0, busy := true }

/-- R211, R212: the getters are accepted in every state of an idle engine, trapped or not, with an empty expansion, and
the next edge gives the response with the geometry (R183: N = 1). -/
def Obligations.GettersAnswerTheGeometry : Prop :=
  ∀ (s : State) (ab : BitVec 16), s.busy = false → s.fault = false → buildable s.cfg = true →
    (∀ d ∈ s.draws.head?, d.rstN = true) →
    (∃ t u, exec (.getColumns ab) s = .next t ∧ t.busy = true ∧ t.seq = [] ∧ step t = .next u ∧
      u.busy = false ∧ u.rspValid = true ∧ u.rspErr = false ∧ u.rspData = s.columns ∧
      u.transfers = s.transfers ∧ u.trace = s.trace) ∧
    (∃ t u, exec (.getRows ab) s = .next t ∧ t.busy = true ∧ t.seq = [] ∧ step t = .next u ∧
      u.busy = false ∧ u.rspValid = true ∧ u.rspErr = false ∧ u.rspData = s.rows ∧
      u.transfers = s.transfers ∧ u.trace = s.trace)

/-- R202: SET_CURSOR's encoding and its checks at acceptance, in their order, after the common checks; a failed check
performs no micro-op and makes no transfer, and the address that passes is sent as `0x80 | addr`. -/
def Obligations.SetCursorChecksInOrder : Prop :=
  ∀ (s : State) (column row : Byte), s.busy = false → s.fault = false →
    (s.cfg.trapUninit = false ∨ s.initState = .ready) →
    decodeCommand (commandWord 0x3 column row) = .setCursor column row ∧
    ∃ t, exec (.setCursor column row) s = .next t ∧
      t.transfers = s.transfers ∧ t.trace = s.trace ∧ t.rsQ = s.rsQ ∧ t.eQ = s.eQ ∧ t.dQ = s.dQ ∧
      if s.rows.toNat ≤ row.toNat then
        t.fault = true ∧ t.busy = false ∧ t.cause = 1 ∧ t.faultOp = 0x3
      else if 4 ≤ row.toNat then
        t.fault = true ∧ t.busy = false ∧ t.cause = 2 ∧ t.faultOp = 0x3
      else if 0xFF < column.toNat + [0x00, 0x40, 0x14, 0x54].getD row.toNat 0 then
        t.fault = true ∧ t.busy = false ∧ t.cause = 3 ∧ t.faultOp = 0x3
      else
        t.fault = false ∧ t.busy = true ∧ t.upc = 0 ∧
        t.seq = send s.cfg.busMode
          (0x80 ||| BitVec.ofNat 8 (column.toNat + [0x00, 0x40, 0x14, 0x54].getD row.toNat 0)) false

/-- R103 with R45, R246: a reserved OP value decodes to a command whose acceptance is the fault ILLEGAL_OP with that OP
recorded; but for the command fields that R45 latches and the sequence that is abandoned (log 13), only the fault state
and the response change. -/
def Obligations.ReservedOpRaisesIllegalOp : Prop :=
  ∀ (s : State) (op : Nibble) (a b : Byte), op = 0x0#4 ∨ 8 ≤ op.toNat → s.busy = false → s.fault = false →
    exec (decodeCommand (commandWord op a b)) s = .next { s with
      curOp := op, argA := a, argB := b,
      fault := true, cause := 5, faultOp := op, seq := [], upc := 0, timer := 0,
      rspValid := true, rspErr := true, rspData := 5 }

/-- R243: with the trap, in UNINIT, the acceptance of CLEAR, SET_CURSOR, PRINT_CHAR and PRINT_END is the fault UNINIT_USE,
with no micro-op and no transfer; in every other case, without the trap, in READY, or for another command, no command
of an idle engine raises UNINIT_USE. -/
def Obligations.UninitializedUseIsTrapped : Prop :=
  ∀ (s : State) (op : Nibble) (a b : Byte), s.busy = false → s.fault = false →
    (s.cfg.trapUninit = true ∧ s.initState = .uninit ∧ (op = 0x2#4 ∨ op = 0x3#4 ∨ op = 0x4#4 ∨ op = 0x5#4) →
      ∃ t, exec (decodeCommand (commandWord op a b)) s = .next t ∧
        t.fault = true ∧ t.cause = 6 ∧ t.faultOp = op ∧ t.busy = false ∧
        t.rspValid = true ∧ t.rspErr = true ∧ t.rspData = 6 ∧
        t.columns = s.columns ∧ t.rows = s.rows ∧ t.initState = s.initState ∧
        t.transfers = s.transfers ∧ t.trace = s.trace ∧ t.rsQ = s.rsQ ∧ t.eQ = s.eQ ∧ t.dQ = s.dQ) ∧
    (¬ (s.cfg.trapUninit = true ∧ s.initState = .uninit ∧ (op = 0x2#4 ∨ op = 0x3#4 ∨ op = 0x4#4 ∨ op = 0x5#4)) →
      ∃ t, exec (decodeCommand (commandWord op a b)) s = .next t ∧ (t.fault = true → t.cause ≠ 6))

/-- R45: a command that meets a busy or a faulted engine is not accepted: nothing happens. -/
def Obligations.NotReadyAcceptsNothing : Prop :=
  ∀ (s : State) (w : CmdWord), s.busy = true ∨ s.fault = true → exec (decodeCommand w) s = .next s

/-- R206: in an idle engine that is UNINIT `rows` is 0, and SET_CURSOR can only fault, with ROW_RANGE or, with the trap,
UNINIT_USE, and makes no transfer. -/
def Obligations.NoCursorBeforeBegin : Prop :=
  ∀ (s : State) (column row : Byte), Inv s → s.busy = false → s.fault = false → s.initState = .uninit →
    s.rows = 0 ∧ ∃ t, exec (.setCursor column row) s = .next t ∧ t.fault = true ∧ t.busy = false ∧
      t.cause = (if s.cfg.trapUninit = true then 6 else 1) ∧ t.transfers = s.transfers ∧ t.trace = s.trace

/-- What the acceptance of a host command leaves alone, for all nine: the pins, the observations, the initialization
state, the build, the host's list, the environment, the clock and the whole module; the geometry too, but for BEGIN. -/
def Obligations.CommandAcceptanceFrame : Prop :=
  ∀ (s t : State) (w : CmdWord), exec (decodeCommand w) s = .next t →
    t.cfg = s.cfg ∧ t.rsQ = s.rsQ ∧ t.eQ = s.eQ ∧ t.dQ = s.dQ ∧ t.initState = s.initState ∧ t.now = s.now ∧
    t.trace = s.trace ∧ t.transfers = s.transfers ∧ t.host = s.host ∧ t.draws = s.draws ∧ t.freeIdx = s.freeIdx ∧
    t.lcd = s.lcd ∧ (∀ addr, ddramRead t.lcd.ddram addr = ddramRead s.lcd.ddram addr) ∧
    (opField w ≠ 0x1#4 → t.columns = s.columns ∧ t.rows = s.rows) ∧
    (t.fault = s.fault ∨ t.fault = true) ∧ (t.timer = s.timer ∨ t.timer = 0)

/-! The words of the bus, as the module executes them (95_test_vectors.md §4; log 9). -/

/-- R107, R110 and 95 §4: each word that the engine emits runs in the module, in every state, with the effect that its
meaning in R107 names (the module's registers are the model's: log 9). -/
def Obligations.BusWordsTakeEffect : Prop :=
  ∀ s : State,
    (∃ n f, exec .initNibble3 s = .next { s with
      lcd := { s.lcd with phase := .eight, twoLine := n, font := f, freeIdx := s.lcd.freeIdx + 1 } }) ∧
    (∃ n f, exec .switchNibble2 s = .next { s with
      lcd := { s.lcd with phase := .four none, twoLine := n, font := f, freeIdx := s.lcd.freeIdx + 1 } }) ∧
    exec .initByte30 s = .next { s with lcd := { s.lcd with phase := .eight, twoLine := false, font := false } } ∧
    exec .fset4Bit1Line s = .next { s with
      lcd := { s.lcd with phase := .four none, twoLine := false, font := false } } ∧
    exec .fset4Bit2Line s = .next { s with
      lcd := { s.lcd with phase := .four none, twoLine := true, font := false } } ∧
    exec .fset8Bit1Line s = .next { s with lcd := { s.lcd with phase := .eight, twoLine := false, font := false } } ∧
    exec .fset8Bit2Line s = .next { s with lcd := { s.lcd with phase := .eight, twoLine := true, font := false } } ∧
    exec .displayControl s = .next { s with
      lcd := { s.lcd with displayOn := true, cursorOn := false, blinkOn := false } } ∧
    exec .entryMode s = .next { s with lcd := { s.lcd with increment := true, shift := false } } ∧
    (∃ l : Lcd, exec .clearDisplay s = .next { s with lcd := { s.lcd with ddram := l.ddram, ac := 0 } } ∧
      ∀ addr, ddramRead l.ddram addr = 0x20)

/-- 95 §4, R74, I21: the set-DDRAM-address word moves the address counter and stores nothing, where the module has the
address (for a byte that came from a merged address bit 7 this is the model's choice: DESIGN CHOICE, log 17);
elsewhere the module's state is any value (log 9), and the engine is untouched all the same. -/
def Obligations.SetAddressMovesTheCounter : Prop :=
  ∀ (s : State) (a : DdramAddr),
    (lcdValidAddr s.lcd.twoLine a = true → exec (.setDdramAddr a) s = .next { s with lcd := { s.lcd with ac := a } }) ∧
    (lcdValidAddr s.lcd.twoLine a = false → ∃ l, exec (.setDdramAddr a) s = .next { s with lcd := l })

/-- R73, R74, 95 §4: where the module's memory is in canonical form (part of `Inv`), a character byte is written at the
module's current address, every other address reads as before, and with increment the counter moves to the next address
of the row; elsewhere the next address is the module's own (R208). -/
def Obligations.CharacterIsWrittenAtTheCounter : Prop :=
  ∀ (s : State) (ch : Byte), LcdOk s → ∃ m a, exec (.writeData ch) s = .next { s with
      lcd := { s.lcd with ddram := m, ac := a, freeIdx := s.lcd.freeIdx + 1 } } ∧
    (∀ addr, ddramRead m addr = if addr = s.lcd.ac.toNat then ch else ddramRead s.lcd.ddram addr) ∧
    (s.lcd.increment = true → lcdValidAddr s.lcd.twoLine (s.lcd.ac + 1) = true → a = s.lcd.ac + 1)

/-- A word of the bus changes the module only; and of those words only clear display, a character byte and an address
that the module does not have change any byte of its memory. -/
def Obligations.BusWordFrame : Prop :=
  ∀ (s t : State) (p : Bool) (i : Instr),
    (∃ w, decodeNibble w = .ok i) ∨ (∃ w, decodeByte p w = .ok i) → exec i s = .next t →
    engineView t = engineView s ∧
    (i ≠ .clearDisplay → (∀ ch, i ≠ .writeData ch) →
      (∀ a, i = .setDdramAddr a → lcdValidAddr s.lcd.twoLine a = true) →
      ∀ addr, ddramRead t.lcd.ddram addr = ddramRead s.lcd.ddram addr)

/-! The step. -/

/-- R45, R85, R259: in a cycle without reset an idle engine accepts the word on its port: the step is the decoded
command run on the state after the edge, with the word taken off the host's list. With no word on the port nothing
changes but the clock, the environment's list and the response, which is over (what `rsp_data` and `rsp_err` then hold
is log 14): no pin moves and no micro-op runs. -/
def Obligations.StepRunsTheAcceptedCommand : Prop :=
  ∀ s : State, buildable s.cfg = true → s.busy = false → s.fault = false → (currentDraw s).rstN = true →
    (∀ w, presented s = some w → step s = exec (decodeCommand w)
      { s with now := s.now + 1, draws := s.draws.tail, rspValid := false, host := s.host.tail }) ∧
    (presented s = none → ∃ d e, step s = .next { s with
      now := s.now + 1, draws := s.draws.tail, rspValid := false, rspData := d, rspErr := e })

/-- R70, R73 and 95 §4: in the cycle that drops E, a transfer that is a whole word to the module, and that decodes, is
run there: the step is that instruction run on the state after the engine's part of the cycle. That the module runs the
word is log 1; how it reads transfers, with its wake-up count and its pending nibble, is the model's (PRESUMED, log 9);
that no transfer is lost without `lcdMisses` is log 16. -/
def Obligations.StepRunsTheBusWord : Prop :=
  ∀ (s : State) (p : Bool) (c : Code) (i : Instr), buildable s.cfg = true → s.busy = true →
    (currentDraw s).rstN = true → (currentDraw s).pinErr = false → (currentDraw s).lcdMisses = false →
    s.seq[s.upc]? = some (.drvE false) → s.eQ = true →
    reading ⟨s.rsQ, s.dQ⟩ s = .word p c → decode p c = .ok i →
    step s = exec i { s with
      now := s.now + 1, draws := s.draws.tail, rspValid := false, eQ := false, upc := s.upc + 1,
      trace := s.trace ++ [⟨.drvE false, s.now + 1⟩], transfers := s.transfers ++ [⟨s.rsQ, s.dQ⟩],
      lcd := { s.lcd with
        wakes := nextWakes s.cfg.busMode ⟨s.rsQ, s.dQ⟩ s.lcd.wakes, phase := dropHalf s.lcd.phase } }

/-- R213, I6: a transfer that is made before BEGIN leaves the module in a state that nothing determines: its interface
width is unknown, and what it holds does not depend on what it held, but for the counters of wake-up values and of free
values (the module is the model's: log 9). The engine's part of the cycle is fully determined all the same. -/
def Obligations.UseBeforeBeginLeavesTheModuleOpen : Prop :=
  ∀ (s : State) (l : Lcd), buildable s.cfg = true → s.busy = true → s.initState = .uninit → s.curOp ≠ 0x1#4 →
    (currentDraw s).rstN = true → (currentDraw s).pinErr = false → (currentDraw s).lcdMisses = false →
    s.seq[s.upc]? = some (.drvE false) → s.eQ = true →
    l.wakes = s.lcd.wakes → l.freeIdx = s.lcd.freeIdx →
    step { s with lcd := l } = step s ∧
    ∃ m, m.phase = .unknown ∧ step s = .next { s with
      now := s.now + 1, draws := s.draws.tail, rspValid := false, eQ := false, upc := s.upc + 1,
      trace := s.trace ++ [⟨.drvE false, s.now + 1⟩], transfers := s.transfers ++ [⟨s.rsQ, s.dQ⟩], lcd := m }

/-- R31, R259: without reset a pin changes only in the cycle of a micro-op that drives it: RS in a DRV_RS, E in a DRV_E,
the data lines in a DRV_D; so completion, acceptance, a wait and an idle cycle leave every pin at its level. -/
def Obligations.PinsMoveOnlyInTheirDrives : Prop :=
  ∀ s t : State, step s = .next t → (currentDraw s).rstN = true →
    (t.rsQ ≠ s.rsQ → s.busy = true ∧ ∃ l, s.seq[s.upc]? = some (.drvRS l)) ∧
    (t.eQ ≠ s.eQ → s.busy = true ∧ ∃ l, s.seq[s.upc]? = some (.drvE l)) ∧
    (t.dQ ≠ s.dQ → s.busy = true ∧ ∃ v, s.seq[s.upc]? = some (.drvD v))

/-- R170: `DRV_RS(l)` takes one cycle, writes `rs_q` and nothing else of the engine, whatever level RS had, and with
`pin_err` raises PIN_DRIVE. -/
def Obligations.DriveSelectTakesOneCycle : Prop :=
  ∀ (s : State) (l : Bool), buildable s.cfg = true → s.busy = true → (currentDraw s).rstN = true →
    s.seq[s.upc]? = some (.drvRS l) →
    ((currentDraw s).pinErr = false → step s = .next { s with
      now := s.now + 1, draws := s.draws.tail, rspValid := false,
      rsQ := l, upc := s.upc + 1, trace := s.trace ++ [⟨.drvRS l, s.now + 1⟩] }) ∧
    ((currentDraw s).pinErr = true → ∃ t, step s = .next t ∧ t.fault = true ∧ t.cause = 4 ∧ t.faultOp = s.curOp)

/-- R172: `DRV_D(v)` takes one cycle and drives every data line i below N_DATA with `v[i]`, and no other; it writes
`d_q` and nothing else of the engine; with `pin_err` it raises PIN_DRIVE. -/
def Obligations.DriveDataTakesOneCycle : Prop :=
  ∀ (s : State) (v : Byte), buildable s.cfg = true → s.busy = true → (currentDraw s).rstN = true →
    s.seq[s.upc]? = some (.drvD v) →
    ((currentDraw s).pinErr = false → ∃ d : Byte, step s = .next { s with
      now := s.now + 1, draws := s.draws.tail, rspValid := false,
      dQ := d, upc := s.upc + 1, trace := s.trace ++ [⟨.drvD v, s.now + 1⟩] } ∧
      ∀ k, d.getLsbD k = (decide (k < s.cfg.nData) && v.getLsbD k)) ∧
    ((currentDraw s).pinErr = true → ∃ t, step s = .next t ∧ t.fault = true ∧ t.cause = 4 ∧ t.faultOp = s.curOp)

/-- R171: `DRV_E(l)` takes one cycle, records a transfer of the levels on the pins exactly when E falls, and writes
`e_q` and nothing else of the engine; with `pin_err` it raises PIN_DRIVE. -/
def Obligations.DriveEnableTakesOneCycle : Prop :=
  ∀ (s : State) (l : Bool), buildable s.cfg = true → s.busy = true → (currentDraw s).rstN = true →
    s.seq[s.upc]? = some (.drvE l) →
    ((currentDraw s).pinErr = false → ∃ m, step s = .next { s with
      now := s.now + 1, draws := s.draws.tail, rspValid := false,
      eQ := l, upc := s.upc + 1, trace := s.trace ++ [⟨.drvE l, s.now + 1⟩],
      transfers := s.transfers ++ (if s.eQ = true ∧ l = false then [⟨s.rsQ, s.dQ⟩] else []),
      lcd := m } ∧ (¬ (s.eQ = true ∧ l = false) → m = s.lcd)) ∧
    ((currentDraw s).pinErr = true → ∃ t, step s = .next t ∧ t.fault = true ∧ t.cause = 4 ∧ t.faultOp = s.curOp)

/-- R70: with no reset and no failed drive, a step makes a transfer exactly when it performs `DRV_E(0)` while `e_q` is
1, and the transfer is that of the levels of RS and D in that cycle. -/
def Obligations.TransferExactlyAtFallingEnable : Prop :=
  ∀ s t : State, step s = .next t → (currentDraw s).rstN = true → (currentDraw s).pinErr = false →
    t.transfers = s.transfers ++
      (if s.busy = true ∧ s.seq[s.upc]? = some (.drvE false) ∧ s.eQ = true then [⟨s.rsQ, s.dQ⟩] else [])

/-- R173: a wait with no reset and no hold occupies exactly `max(1, cyc(T))` cycles, whatever `pin_err` does, and at
least T; the timer counts down through it from `max(1, cyc(T)) - 1`, and nothing else changes but the clock, the trace
and the end of a response; at 1 MHz `WAIT(T_RS)` holds 100 cycles. -/
def Obligations.WaitHoldsItsCycles : Prop :=
  (∀ (s : State) (w : Delay), buildable s.cfg = true → s.busy = true → s.timer = 0 →
    s.seq[s.upc]? = some (.wait w) →
    (∀ d ∈ s.draws.take (waitCycles s.cfg w), d.rstN = true ∧ d.hold = false) →
    waitCycles s.cfg w = max 1 (cyc s.cfg w) ∧
    delayNs s.cfg.delays w * s.cfg.fClkHz ≤ waitCycles s.cfg w * 1000000000 ∧
    (∀ n, 0 < n → n < waitCycles s.cfg w → runs n s = .next { s with
      now := s.now + n, draws := s.draws.drop n, rspValid := false,
      timer := max 1 (cyc s.cfg w) - n, trace := s.trace ++ [⟨.wait w, s.now + 1⟩] }) ∧
    runs (waitCycles s.cfg w) s = .next { s with
      now := s.now + waitCycles s.cfg w, draws := s.draws.drop (waitCycles s.cfg w), rspValid := false,
      upc := s.upc + 1, trace := s.trace ++ [⟨.wait w, s.now + 1⟩] }) ∧
  waitCycles standardConfig .tRs = 100

/-- R13: every longer duration is admitted too: for every number of extra cycles some environment makes the wait last
exactly that much longer. -/
def Obligations.WaitMayLastLonger : Prop :=
  ∀ (s : State) (w : Delay) (k : Nat), buildable s.cfg = true → s.busy = true → s.timer = 0 →
    s.seq[s.upc]? = some (.wait w) →
    ∃ ds : List Draw, ds.length = waitCycles s.cfg w + k ∧
      (∃ t, runs (waitCycles s.cfg w + k) { s with draws := ds } = .next t ∧ t.upc = s.upc + 1 ∧ t.timer = 0) ∧
      ∀ n < waitCycles s.cfg w + k, ∃ t, runs n { s with draws := ds } = .next t ∧ t.upc = s.upc ∧ t.busy = true

/-- R35, R9: in an engine that was built the wait counter never loses a bit of what it is loaded with. -/
def Obligations.TimerHoldsEveryWait : Prop :=
  ∀ (c : Config) (w : Delay), buildable c = true →
    timerLoad c w = max 1 (cyc c w) - 1 ∧ timerLoad c w < 2 ^ c.timerW ∧
    delayNs defaultDelays w ≤ delayNs c.delays w

/-- R250 (d), R173: `pin_err` outside the cycle of a drive is ignored. -/
def Obligations.PinErrorOutsideDriveIsIgnored : Prop :=
  ∀ (s : State) (d : Draw) (ds : List Draw) (e : Bool),
    (s.busy = true → ∀ m, s.seq[s.upc]? = some m → ∃ w, m = .wait w) →
    step { s with draws := { d with pinErr := e } :: ds } = step { s with draws := d :: ds }

/-- R242: without reset, a step raises PIN_DRIVE exactly in the cycle of a drive at which `pin_err` is 1; and the
commands that hold a drive are BEGIN, CLEAR, SET_CURSOR and PRINT_CHAR, not PRINT_END or the getters. -/
def Obligations.PinDriveFaultExactlyAtFailedDrive : Prop :=
  (∀ s t : State, step s = .next t → s.fault = false → (currentDraw s).rstN = true →
    ((t.fault = true ∧ t.cause = 4) ↔
      (s.busy = true ∧ (currentDraw s).pinErr = true ∧
        ∃ m, s.seq[s.upc]? = some m ∧ ∀ w, m ≠ .wait w))) ∧
  (∀ (m : BusMode) (rows a b : Byte) (op : Nibble) (l : List MicroOp), expansionOf m rows op a b = some l →
    ((∃ x ∈ l, ∀ w, x ≠ .wait w) ↔ (op = 0x1#4 ∨ op = 0x2#4 ∨ op = 0x3#4 ∨ op = 0x4#4)))

/-- R246: whenever a step raises a fault, at acceptance or at a failed drive, the fault state, the end of the command and
the response are as the rule says, the geometry and the initialization state keep their values, the transfers made
stand, and every pin keeps its level but the one whose drive failed. That a failed drive makes a transfer only where E
was high is the model's reading (DEDUCED, log 7), and so is that the abandoned `seq` is the empty list (DEDUCED, log 13). -/
def Obligations.FaultEntryIsUniform : Prop :=
  ∀ s t : State, step s = .next t → s.fault = false → t.fault = true →
    (∃ c : Cause, t.cause = Cause.code c ∧ t.rspData = (Cause.code c).setWidth 8) ∧
    (s.busy = true → t.faultOp = s.curOp) ∧
    (s.busy = false → ∃ w, presented s = some w ∧ t.faultOp = opField w) ∧
    t.busy = false ∧ t.seq = [] ∧ t.timer = 0 ∧ t.rspValid = true ∧ t.rspErr = true ∧
    t.columns = s.columns ∧ t.rows = s.rows ∧ t.initState = s.initState ∧ t.cfg = s.cfg ∧
    (t.transfers = s.transfers ∨ (s.eQ = true ∧ t.transfers = s.transfers ++ [⟨s.rsQ, s.dQ⟩])) ∧
    (t.rsQ = s.rsQ ∨ s.busy = true ∧ ∃ l, s.seq[s.upc]? = some (.drvRS l)) ∧
    (t.eQ = s.eQ ∨ s.busy = true ∧ ∃ l, s.seq[s.upc]? = some (.drvE l)) ∧
    (t.dQ = s.dQ ∨ s.busy = true ∧ ∃ v, s.seq[s.upc]? = some (.drvD v))

/-- R249: in the fault state a step without reset accepts no command, runs no micro-op and raises no second fault:
nothing changes but the clock, the environment's list and the response, which is over. Reset clears the fault state. -/
def Obligations.FaultStateIsSticky : Prop :=
  ∀ s : State, buildable s.cfg = true → s.fault = true → s.busy = false →
    ((currentDraw s).rstN = true →
      ∃ d e, step s = .next { s with
        now := s.now + 1, draws := s.draws.tail, rspValid := false, rspData := d, rspErr := e }) ∧
    ((currentDraw s).rstN = false →
      ∃ t, step s = .next t ∧ t.fault = false ∧ t.cause = 0 ∧ t.faultOp = 0)

/-- R44, R280: a reset edge puts every element of R44's table to its reset value in any state (of the registers that are
"no command", `busy` says that there is none), gives no response and accepts no command; `cmd_ready` is 0 with it, and 1
in the first cycle after it; no BEGIN starts; the module is not reset. With R281: the transfers stand, with the one that
dropping a high E may make. The build and the host's list stay. -/
def Obligations.ResetEdgeGivesResetValues : Prop :=
  ∀ s : State, buildable s.cfg = true → (currentDraw s).rstN = false →
    ∃ t, step s = .next t ∧
      t.columns = 0 ∧ t.rows = 0 ∧ t.initState = .uninit ∧ t.busy = false ∧ t.timer = 0 ∧
      t.fault = false ∧ t.cause = 0 ∧ t.faultOp = 0 ∧ t.rsQ = false ∧ t.eQ = false ∧ t.dQ = 0 ∧
      t.rspValid = false ∧ t.rspData = 0 ∧ t.rspErr = false ∧
      t.cfg = s.cfg ∧ t.host = s.host ∧ t.trace = s.trace ∧
      cmdReady s = false ∧ ((currentDraw t).rstN = true → cmdReady t = true) ∧
      (s.busy = false → s.eQ = false → t.lcd = s.lcd) ∧
      (s.eQ = false → t.transfers = s.transfers) ∧
      (t.transfers = s.transfers ∨ t.transfers = s.transfers ++ [⟨s.rsQ, s.dQ⟩] ∨
        t.transfers = s.transfers ++ [⟨false, 0⟩])

/-- R39: the status port, bit for bit, in any state, and its value at reset. -/
def Obligations.StatusPortLayout : Prop :=
  ∀ s : State,
    (status s).getLsbD 0 = s.busy ∧
    (status s).getLsbD 1 = decide (s.initState = .ready) ∧
    (status s).getLsbD 2 = s.fault ∧
    (status s).extractLsb' 3 4 = s.cause ∧
    (status s).getLsbD 7 = decide (s.cfg.busMode = .eightBit) ∧
    (status s).extractLsb' 8 4 = (if s.fault = true then s.faultOp else 0) ∧
    (status s).extractLsb' 12 4 = 0 ∧
    stColumns s = s.columns ∧ stRows s = s.rows ∧
    ∀ c, status (State.afterReset c) = (match c.busMode with | .fourBit => 0x0000 | .eightBit => 0x0080)

/-- R34, R83, R88: while a command runs its fields and its expansion do not change, and its position moves by at most one
micro-op a cycle and never back. -/
def Obligations.RunningCommandIsFixed : Prop :=
  ∀ s t : State, step s = .next t → s.busy = true → t.busy = true →
    t.seq = s.seq ∧ t.curOp = s.curOp ∧ t.argA = s.argA ∧ t.argB = s.argB ∧
    t.columns = s.columns ∧ t.rows = s.rows ∧ t.host = s.host ∧ (t.upc = s.upc ∨ t.upc = s.upc + 1)

/-- R33, R152: the only way to READY is a BEGIN that completes its whole expansion, and the only way back is reset. -/
def Obligations.OnlyCompletedBeginMakesReady : Prop :=
  ∀ s t : State, step s = .next t →
    (s.initState = .uninit → t.initState = .ready →
      s.busy = true ∧ s.curOp = 0x1#4 ∧ s.upc = s.seq.length ∧ t.busy = false ∧ t.fault = s.fault) ∧
    (s.initState = .ready → t.initState = .uninit → (currentDraw s).rstN = false)

/-- R32: the geometry is written only by the acceptance of a BEGIN, with its two arguments, and by reset. -/
def Obligations.OnlyBeginWritesGeometry : Prop :=
  ∀ s t : State, step s = .next t → t.columns ≠ s.columns ∨ t.rows ≠ s.rows →
    ((currentDraw s).rstN = false ∧ t.columns = 0 ∧ t.rows = 0) ∨
    (s.busy = false ∧ s.fault = false ∧
      ∃ w, presented s = some w ∧ opField w = 0x1#4 ∧ t.columns = aField w ∧ t.rows = bField w)

/-- R36, R249: only reset clears the fault state. -/
def Obligations.OnlyResetClearsTheFault : Prop :=
  ∀ s t : State, Inv s → step s = .next t → s.fault = true →
    (currentDraw s).rstN = false ∨ (t.fault = true ∧ t.cause = s.cause ∧ t.faultOp = s.faultOp)

/-! Invariants. -/

/-- Every step from a good state leads to a good state. -/
def Obligations.EveryStepKeepsTheInvariant : Prop :=
  ∀ s t : State, Inv s → step s = .next t → Inv t

/-- The state right after reset is good, for every build that elaboration accepts. -/
def Obligations.ResetStateIsGood : Prop :=
  Inv State.reset ∧ ∀ (c : Config) (s : State), elaborate true c = some s → Inv s

/-- From a good state the machine goes on: no step stops in a fault of the model or a refusal. -/
def Obligations.GoodStatesProceed : Prop := ∀ s : State, Inv s → Proceeds s

/-- R41, R72: nothing the engine does depends on the module: two states that differ only in the module step to states
that differ only in the module. -/
def Obligations.EngineNeverReadsTheModule : Prop :=
  ∀ s s' t t' : State, engineView s = engineView s' → step s = .next t → step s' = .next t' →
    engineView t = engineView t'

/-! The expansions. -/

/-- R153: the size, the drives, the least duration and the transfer list of BEGIN, in both modes, for every `rows` and
for any levels that RS and D had before. -/
def Obligations.BeginTransferList : Prop :=
  ∀ (rows d : Byte) (rs : Bool),
    (beginSeq .fourBit rows).length = 104 ∧ (beginSeq .eightBit rows).length = 68 ∧
    (beginSeq .fourBit rows).countP (fun m => match m with | .wait _ => false | _ => true) = 54 ∧
    (beginSeq .eightBit rows).countP (fun m => match m with | .wait _ => false | _ => true) = 34 ∧
    minDurationNs defaultDelays (beginSeq .fourBit rows) = 175848000 ∧
    minDurationNs defaultDelays (beginSeq .eightBit rows) = 165828000 ∧
    transfersOf .fourBit rs false d (beginSeq .fourBit rows) =
      [⟨false, 0x3⟩, ⟨false, 0x3⟩, ⟨false, 0x3⟩, ⟨false, 0x2⟩,
       ⟨false, 0x2⟩, ⟨false, if 1 < rows.toNat then 0x8 else 0x0⟩,
       ⟨false, 0x0⟩, ⟨false, 0xC⟩, ⟨false, 0x0⟩, ⟨false, 0x1⟩, ⟨false, 0x0⟩, ⟨false, 0x6⟩] ∧
    transfersOf .eightBit rs false d (beginSeq .eightBit rows) =
      [⟨false, 0x30⟩, ⟨false, 0x30⟩, ⟨false, 0x30⟩, ⟨false, if 1 < rows.toNat then 0x38 else 0x30⟩,
       ⟨false, 0x0C⟩, ⟨false, 0x01⟩, ⟨false, 0x06⟩]

/-- R79, R80, R180: SEND makes, in FOUR_BIT, the transfers of the high nibble and then the low nibble, and in EIGHT_BIT
the one of the whole byte, with RS as told and E low at the end, for every byte and any levels before. -/
def Obligations.SendTransfers : Prop :=
  ∀ (v d : Byte) (rs isData : Bool),
    transfersOf .fourBit rs false d (send .fourBit v isData) =
      [⟨isData, BitVec.ofNat 8 (v.toNat / 16)⟩, ⟨isData, BitVec.ofNat 8 (v.toNat % 16)⟩] ∧
    transfersOf .eightBit rs false d (send .eightBit v isData) = [⟨isData, v⟩] ∧
    eAfter (send .fourBit v isData) = false ∧ eAfter (send .eightBit v isData) = false ∧
    minDurationNs defaultDelays (send .fourBit v isData) = 2108000 ∧
    minDurationNs defaultDelays (send .eightBit v isData) = 1104000

/-- R175: in every expansion of every command, each `DRV_E(1)` follows a `DRV_D`, a `DRV_E(0)` and `WAIT(T_E_LOW)` and is
followed by `WAIT(T_E_HIGH)` and `DRV_E(0)`, and nothing else stands between; E is low before it; each SEND drives RS and
waits T_RS before its first data; and BEGIN's init phase drives RS only at its start. -/
def Obligations.StrobeDiscipline : Prop :=
  (∀ (m : BusMode) (rows a b : Byte) (op : Nibble) (l : List MicroOp) (k : Nat),
    expansionOf m rows op a b = some l → l[k]? = some (.drvE true) →
      3 ≤ k ∧ (∃ v, l[k - 3]? = some (.drvD v)) ∧ l[k - 2]? = some (.drvE false) ∧
      l[k - 1]? = some (.wait .tELow) ∧ l[k + 1]? = some (.wait .tEHigh) ∧ l[k + 2]? = some (.drvE false) ∧
      eAfter (l.take k) = false) ∧
  (∀ (m : BusMode) (v : Byte) (isData : Bool), ∃ x rest, send m v isData =
    [.drvRS isData, .wait .tRs, .drvD x, .drvE false, .wait .tELow, .drvE true] ++ rest) ∧
  (∀ (m : BusMode) (rows : Byte), ∃ phase rest, beginSeq m rows =
    [.wait .tPowerUp, .drvRS false] ++ phase ++ send m (fset m rows) false ++ rest ∧ ∀ l, .drvRS l ∉ phase)

/-- R301 with the count of R183: the clock edges from acceptance to the response at 1 MHz of every command in both modes,
for all arguments; and the least durations of R300. -/
def Obligations.CycleCountsOfTheCommands : Prop :=
  ∀ (c : Config) (rows addr ch : Byte), c.fClkHz = 1000000 → c.delays = defaultDelays →
    (∀ l, responseEdges c l = 1 + l.countP (fun m => match m with | .wait _ => false | _ => true) +
      (l.filterMap (fun m => match m with | .wait w => some (max 1 (cyc c w)) | _ => none)).sum) ∧
    responseEdges c (beginSeq .fourBit rows) = 175903 ∧ responseEdges c (beginSeq .eightBit rows) = 165863 ∧
    responseEdges c (clearSeq .fourBit) = 4118 ∧ responseEdges c (clearSeq .eightBit) = 3110 ∧
    responseEdges c (setCursorSeq .fourBit addr) = 2118 ∧ responseEdges c (setCursorSeq .eightBit addr) = 1110 ∧
    responseEdges c (printCharSeq .fourBit ch) = 2268 ∧ responseEdges c (printCharSeq .eightBit ch) = 1260 ∧
    responseEdges c printEndSeq = 151 ∧ responseEdges c getterSeq = 1 ∧
    minDurationNs c.delays (clearSeq .fourBit) = 4108000 ∧ minDurationNs c.delays (clearSeq .eightBit) = 3104000 ∧
    minDurationNs c.delays (setCursorSeq .fourBit addr) = 2108000 ∧
    minDurationNs c.delays (setCursorSeq .eightBit addr) = 1104000 ∧
    minDurationNs c.delays (printCharSeq .fourBit ch) = 2258000 ∧
    minDurationNs c.delays (printCharSeq .eightBit ch) = 1254000 ∧
    minDurationNs c.delays printEndSeq = 150000 ∧ minDurationNs c.delays getterSeq = 0

/-! Whole commands. -/

/-- R183, R34, R45, R71, R85: a command that has just been accepted, in a quiet environment, is busy for exactly its
cycles, then gives its response `N = 1 + k + sum max(1, cyc(Wi))` edges after the accepting one; its pin trace is its
expansion in order, each micro-op at its time and the first in the cycle after acceptance, its transfers are those of
that list, every pin ends at the level that the list drove it to last (R31), and it ends as R34 and R152 say. The edges
on which micro-ops start and the response falls are the model's reading of R183 (DEDUCED, log 12); the clock, the trace
and the transfer list are fields of its own (DESIGN CHOICE, log 15). -/
def Obligations.AcceptedCommandRunsToItsResponse : Prop :=
  ∀ s : State, buildable s.cfg = true → s.busy = true → s.upc = 0 → s.timer = 0 →
    QuietFor (responseEdges s.cfg s.seq) s →
    (∀ k ≤ sequenceCycles s.cfg s.seq, ∃ u, runs k s = .next u ∧ u.busy = true ∧ (0 < k → u.rspValid = false)) ∧
    ∃ t, runs (responseEdges s.cfg s.seq) s = .next t ∧ t.busy = false ∧ t.fault = s.fault ∧
      t.rspValid = true ∧ t.rspErr = false ∧ t.rspData = responseData s ∧
      t.initState = (if s.curOp = 0x1#4 then .ready else s.initState) ∧
      t.columns = s.columns ∧ t.rows = s.rows ∧ t.host = s.host ∧ t.cfg = s.cfg ∧ t.timer = 0 ∧
      t.now = s.now + responseEdges s.cfg s.seq ∧
      t.trace = s.trace ++ traceFrom s.cfg (s.now + 1) s.seq ∧
      t.transfers = s.transfers ++ transfersOf s.cfg.busMode s.rsQ s.eQ s.dQ s.seq ∧
      t.rsQ = s.seq.foldl levelRS s.rsQ ∧ t.eQ = s.seq.foldl levelE s.eQ ∧
      t.dQ = s.seq.foldl (levelD s.cfg.busMode) s.dQ

/-- R140, R152, R153, R285 and 95 §4: whatever state the module is in, a BEGIN that is issued to a good idle engine in a
quiet environment ends READY with the geometry of its arguments, and with the module in the interface of the bus mode,
with the line count of `rows > 1` and F = 0, the display on without cursor or blink, increment without shift, every address
blank and the address counter 0 (the module's registers are the model's: PRESUMED, log 9; the placement of the edges
is its reading: DEDUCED, log 12). -/
def Obligations.BeginInitializesAnyModule : Prop :=
  ∀ (s : State) (columns rows : Byte), Inv s → s.busy = false → s.fault = false →
    s.host.head? = some (commandWord 0x1 columns rows) →
    QuietFor (1 + responseEdges s.cfg (beginSeq s.cfg.busMode rows)) s →
    ∃ t, runs (1 + responseEdges s.cfg (beginSeq s.cfg.busMode rows)) s = .next t ∧
      t.busy = false ∧ t.fault = false ∧ t.initState = .ready ∧ t.columns = columns ∧ t.rows = rows ∧
      t.rspValid = true ∧ t.rspErr = false ∧ t.rspData = 0 ∧
      t.lcd.phase = (match s.cfg.busMode with | .fourBit => .four none | .eightBit => .eight) ∧
      t.lcd.twoLine = decide (1 < rows.toNat) ∧ t.lcd.font = false ∧
      t.lcd.displayOn = true ∧ t.lcd.cursorOn = false ∧ t.lcd.blinkOn = false ∧
      t.lcd.increment = true ∧ t.lcd.shift = false ∧ t.lcd.ac = 0 ∧
      ∀ addr, ddramRead t.lcd.ddram addr = 0x20

/-! Construction and assembly. -/

/-- R282: an engine whose data-line count does not agree with its bus mode does not exist: construction gives no state,
and a state with such a build has no step; with the parameters of an engine construction gives the reset state. -/
def Obligations.MismatchedLinesAreRefused : Prop :=
  ∀ c : Config,
    ((c.busMode = .fourBit ∧ c.nData ≠ 4) ∨ (c.busMode = .eightBit ∧ c.nData ≠ 8) →
      elaborate true c = none ∧ ∀ s : State, s.cfg = c → step s = .refused .notBuilt) ∧
    (buildable c = true → elaborate true c = some (State.afterReset c)) ∧ elaborate false c = none

/-- R121: PRINT with a text stands for one PRINT_CHAR a character, with its code point modulo 256, in order, and then one
PRINT_END; the line in quotes assembles to those words. That the text runs to the last double quote of the line, so that
it may hold double quotes itself, is the model's choice (DESIGN CHOICE, log 11; R121 is silent). -/
def Obligations.PrintLineAssembles : Prop :=
  ∀ text : List Char,
    assembleLine (['P', 'R', 'I', 'N', 'T', ' ', '"'] ++ text ++ ['"']) = some (printWords text) ∧
    (printWords text).map decodeCommand =
      text.map (fun c => .printChar 0 (BitVec.ofNat 8 (c.toNat % 256))) ++ [.printEnd 0]
end

