-- ==== Sys2Proof/Laws/Encoding.lean ====
section
/-! SUPPORT. The fields of the words that the encoder builds, and back. -/

namespace Sys2Proof


@[simp] theorem opField_commandWord (op : Nibble) (a b : Byte) : opField (commandWord op a b) = op := by
  ext i hi
  simp [opField, commandWord]
  all_goals grind


@[simp] theorem aField_commandWord (op : Nibble) (a b : Byte) : aField (commandWord op a b) = a := by
  ext i hi
  simp [aField, commandWord]
  all_goals grind

@[simp] theorem bField_commandWord (op : Nibble) (a b : Byte) : bField (commandWord op a b) = b := by
  ext i hi
  simp [bField, commandWord]
  all_goals grind

@[simp] theorem abField_commandWord (op : Nibble) (a b : Byte) : abField (commandWord op a b) = argWord a b := by
  ext i hi
  simp [abField, commandWord, argWord]
  all_goals grind

@[simp] theorem opField_commandWord16 (op : Nibble) (ab : BitVec 16) : opField (commandWord16 op ab) = op := by
  ext i hi
  simp [opField, commandWord16]
  all_goals grind

@[simp] theorem abField_commandWord16 (op : Nibble) (ab : BitVec 16) : abField (commandWord16 op ab) = ab := by
  ext i hi
  simp [abField, commandWord16]
  all_goals grind

@[simp] theorem commandWord_fields (w : CmdWord) : commandWord (opField w) (aField w) (bField w) = w := by
  ext i hi
  simp [opField, aField, bField, commandWord]
  all_goals grind

@[simp] theorem commandWord16_fields (w : CmdWord) : commandWord16 (opField w) (abField w) = w := by
  ext i hi
  simp [opField, abField, commandWord16]
  all_goals grind

@[simp] theorem busWord_rs (rs : Bool) (v : Byte) : (busWord rs v).getLsbD 8 = rs := by
  simp [busWord]

@[simp] theorem busWord_value (rs : Bool) (v : Byte) : (busWord rs v).extractLsb' 0 8 = v := by
  ext i hi
  simp [busWord]
  all_goals grind

/-- A bus byte is its RS level and its value. -/
theorem busWord_fields (w : ByteWord) : busWord (w.getLsbD 8) (w.extractLsb' 0 8) = w := by
  ext i hi
  simp [busWord]
  all_goals grind

/-- The high and the low nibble of a byte make the byte (R79). -/
theorem pairByte_nibbles (v : Byte) : pairByte (v.extractLsb' 4 4) (v.extractLsb' 0 4) = v := by
  ext i hi
  simp [pairByte]
  all_goals grind

end Sys2Proof
end

