-- ==== Sys2Proof/Laws/Operands.lean ====
section
/-! SUPPORT. The operand forms: the address of SET_CURSOR in numbers, and the ignored fields. -/

namespace Sys2Proof.Machine

/-- R37: the row-offset table as numbers. -/
theorem rowOffset_eq : ∀ row : Byte, rowOffset row =
    if row.toNat < 4 then some (BitVec.ofNat 8 ([0x00, 0x40, 0x14, 0x54].getD row.toNat 0)) else none := by decide

theorem rowOffset_lt (n : Nat) : [0x00, 0x40, 0x14, 0x54].getD n 0 < 256 := by
  match n with
  | 0 | 1 | 2 | 3 => decide
  | n + 4 => simp

/-- R203: the 9-bit sum loses nothing. -/
theorem addrSum_toNat (column offset : Byte) : (addrSum column offset).toNat = column.toNat + offset.toNat := by
  have := column.isLt
  have := offset.isLt
  simp only [addrSum, BitVec.toNat_add, BitVec.toNat_setWidth]
  omega

/-- R202: the checks and the address, in numbers. -/
theorem cursorAddr_eq (rows column row : Byte) : cursorAddr rows column row =
    if rows.toNat ≤ row.toNat then .error .rowRange
    else if 4 ≤ row.toNat then .error .rowTable
    else if 0xFF < column.toNat + [0x00, 0x40, 0x14, 0x54].getD row.toNat 0 then .error .addrOverflow
    else .ok (BitVec.ofNat 8 (column.toNat + [0x00, 0x40, 0x14, 0x54].getD row.toNat 0)) := by
  have ho := rowOffset_lt row.toNat
  unfold cursorAddr
  rw [rowOffset_eq]
  by_cases h : rows.toNat ≤ row.toNat
  · simp only [h, if_true]
  by_cases h4 : row.toNat < 4
  · have h4' : ¬ 4 ≤ row.toNat := by omega
    have hs := addrSum_toNat column (BitVec.ofNat 8 ([0x00, 0x40, 0x14, 0x54].getD row.toNat 0))
    rw [BitVec.toNat_ofNat, Nat.mod_eq_of_lt ho] at hs
    simp only [h, h4, h4', if_true, if_false, hs]
    split
    · rfl
    · congr 1
      apply BitVec.eq_of_toNat_eq
      rw [BitVec.toNat_setWidth, hs, BitVec.toNat_ofNat]
  · simp only [h, h4, Nat.le_of_not_lt h4, if_true, if_false]

end Sys2Proof.Machine
end

