-- ==== Sys2Proof/Laws/State.lean ====
section
/-! SUPPORT. The small lemmas of the state updates: for each update, what each field is after it. Later proofs rewrite by
them and unfold no record update. -/

namespace Sys2Proof.Machine

variable (s : State)

/-! `raiseFault`. -/

@[simp] theorem raiseFault_cfg (c : Cause) : (raiseFault c s).cfg = s.cfg := rfl
@[simp] theorem raiseFault_rsQ (c : Cause) : (raiseFault c s).rsQ = s.rsQ := rfl
@[simp] theorem raiseFault_eQ (c : Cause) : (raiseFault c s).eQ = s.eQ := rfl
@[simp] theorem raiseFault_dQ (c : Cause) : (raiseFault c s).dQ = s.dQ := rfl
@[simp] theorem raiseFault_columns (c : Cause) : (raiseFault c s).columns = s.columns := rfl
@[simp] theorem raiseFault_rows (c : Cause) : (raiseFault c s).rows = s.rows := rfl
@[simp] theorem raiseFault_initState (c : Cause) : (raiseFault c s).initState = s.initState := rfl
@[simp] theorem raiseFault_busy (c : Cause) : (raiseFault c s).busy = false := rfl
@[simp] theorem raiseFault_curOp (c : Cause) : (raiseFault c s).curOp = s.curOp := rfl
@[simp] theorem raiseFault_argA (c : Cause) : (raiseFault c s).argA = s.argA := rfl
@[simp] theorem raiseFault_argB (c : Cause) : (raiseFault c s).argB = s.argB := rfl
@[simp] theorem raiseFault_seq (c : Cause) : (raiseFault c s).seq = [] := rfl
@[simp] theorem raiseFault_upc (c : Cause) : (raiseFault c s).upc = 0 := rfl
@[simp] theorem raiseFault_timer (c : Cause) : (raiseFault c s).timer = 0 := rfl
@[simp] theorem raiseFault_fault (c : Cause) : (raiseFault c s).fault = true := rfl
@[simp] theorem raiseFault_cause (c : Cause) : (raiseFault c s).cause = Cause.code c := rfl
@[simp] theorem raiseFault_faultOp (c : Cause) : (raiseFault c s).faultOp = s.curOp := rfl
@[simp] theorem raiseFault_rspValid (c : Cause) : (raiseFault c s).rspValid = true := rfl
@[simp] theorem raiseFault_rspData (c : Cause) : (raiseFault c s).rspData = (Cause.code c).setWidth 8 := rfl
@[simp] theorem raiseFault_rspErr (c : Cause) : (raiseFault c s).rspErr = true := rfl
@[simp] theorem raiseFault_now (c : Cause) : (raiseFault c s).now = s.now := rfl
@[simp] theorem raiseFault_trace (c : Cause) : (raiseFault c s).trace = s.trace := rfl
@[simp] theorem raiseFault_transfers (c : Cause) : (raiseFault c s).transfers = s.transfers := rfl
@[simp] theorem raiseFault_host (c : Cause) : (raiseFault c s).host = s.host := rfl
@[simp] theorem raiseFault_draws (c : Cause) : (raiseFault c s).draws = s.draws := rfl
@[simp] theorem raiseFault_lcd (c : Cause) : (raiseFault c s).lcd = s.lcd := rfl
@[simp] theorem raiseFault_freeIdx (c : Cause) : (raiseFault c s).freeIdx = s.freeIdx := rfl

/-! `resetEngine`. -/

@[simp] theorem resetEngine_cfg : (resetEngine s).cfg = s.cfg := rfl
@[simp] theorem resetEngine_rsQ : (resetEngine s).rsQ = false := rfl
@[simp] theorem resetEngine_eQ : (resetEngine s).eQ = false := rfl
@[simp] theorem resetEngine_dQ : (resetEngine s).dQ = 0 := rfl
@[simp] theorem resetEngine_columns : (resetEngine s).columns = 0 := rfl
@[simp] theorem resetEngine_rows : (resetEngine s).rows = 0 := rfl
@[simp] theorem resetEngine_initState : (resetEngine s).initState = .uninit := rfl
@[simp] theorem resetEngine_busy : (resetEngine s).busy = false := rfl
@[simp] theorem resetEngine_curOp : (resetEngine s).curOp = 0 := rfl
@[simp] theorem resetEngine_argA : (resetEngine s).argA = 0 := rfl
@[simp] theorem resetEngine_argB : (resetEngine s).argB = 0 := rfl
@[simp] theorem resetEngine_seq : (resetEngine s).seq = [] := rfl
@[simp] theorem resetEngine_upc : (resetEngine s).upc = 0 := rfl
@[simp] theorem resetEngine_timer : (resetEngine s).timer = 0 := rfl
@[simp] theorem resetEngine_fault : (resetEngine s).fault = false := rfl
@[simp] theorem resetEngine_cause : (resetEngine s).cause = 0 := rfl
@[simp] theorem resetEngine_faultOp : (resetEngine s).faultOp = 0 := rfl
@[simp] theorem resetEngine_rspValid : (resetEngine s).rspValid = false := rfl
@[simp] theorem resetEngine_rspData : (resetEngine s).rspData = 0 := rfl
@[simp] theorem resetEngine_rspErr : (resetEngine s).rspErr = false := rfl
@[simp] theorem resetEngine_now : (resetEngine s).now = s.now := rfl
@[simp] theorem resetEngine_trace : (resetEngine s).trace = s.trace := rfl
@[simp] theorem resetEngine_transfers : (resetEngine s).transfers = s.transfers := rfl
@[simp] theorem resetEngine_host : (resetEngine s).host = s.host := rfl
@[simp] theorem resetEngine_draws : (resetEngine s).draws = s.draws := rfl
@[simp] theorem resetEngine_lcd : (resetEngine s).lcd = s.lcd := rfl
@[simp] theorem resetEngine_freeIdx : (resetEngine s).freeIdx = s.freeIdx := rfl

/-! `latchCommand`. -/

@[simp] theorem latchCommand_cfg (op : Nibble) (a b : Byte) : (latchCommand op a b s).cfg = s.cfg := rfl
@[simp] theorem latchCommand_rsQ (op : Nibble) (a b : Byte) : (latchCommand op a b s).rsQ = s.rsQ := rfl
@[simp] theorem latchCommand_eQ (op : Nibble) (a b : Byte) : (latchCommand op a b s).eQ = s.eQ := rfl
@[simp] theorem latchCommand_dQ (op : Nibble) (a b : Byte) : (latchCommand op a b s).dQ = s.dQ := rfl
@[simp] theorem latchCommand_columns (op : Nibble) (a b : Byte) : (latchCommand op a b s).columns = s.columns := rfl
@[simp] theorem latchCommand_rows (op : Nibble) (a b : Byte) : (latchCommand op a b s).rows = s.rows := rfl
@[simp] theorem latchCommand_initState (op : Nibble) (a b : Byte) : (latchCommand op a b s).initState = s.initState := rfl
@[simp] theorem latchCommand_busy (op : Nibble) (a b : Byte) : (latchCommand op a b s).busy = s.busy := rfl
@[simp] theorem latchCommand_curOp (op : Nibble) (a b : Byte) : (latchCommand op a b s).curOp = op := rfl
@[simp] theorem latchCommand_argA (op : Nibble) (a b : Byte) : (latchCommand op a b s).argA = a := rfl
@[simp] theorem latchCommand_argB (op : Nibble) (a b : Byte) : (latchCommand op a b s).argB = b := rfl
@[simp] theorem latchCommand_seq (op : Nibble) (a b : Byte) : (latchCommand op a b s).seq = s.seq := rfl
@[simp] theorem latchCommand_upc (op : Nibble) (a b : Byte) : (latchCommand op a b s).upc = s.upc := rfl
@[simp] theorem latchCommand_timer (op : Nibble) (a b : Byte) : (latchCommand op a b s).timer = s.timer := rfl
@[simp] theorem latchCommand_fault (op : Nibble) (a b : Byte) : (latchCommand op a b s).fault = s.fault := rfl
@[simp] theorem latchCommand_cause (op : Nibble) (a b : Byte) : (latchCommand op a b s).cause = s.cause := rfl
@[simp] theorem latchCommand_faultOp (op : Nibble) (a b : Byte) : (latchCommand op a b s).faultOp = s.faultOp := rfl
@[simp] theorem latchCommand_rspValid (op : Nibble) (a b : Byte) : (latchCommand op a b s).rspValid = s.rspValid := rfl
@[simp] theorem latchCommand_rspData (op : Nibble) (a b : Byte) : (latchCommand op a b s).rspData = s.rspData := rfl
@[simp] theorem latchCommand_rspErr (op : Nibble) (a b : Byte) : (latchCommand op a b s).rspErr = s.rspErr := rfl
@[simp] theorem latchCommand_now (op : Nibble) (a b : Byte) : (latchCommand op a b s).now = s.now := rfl
@[simp] theorem latchCommand_trace (op : Nibble) (a b : Byte) : (latchCommand op a b s).trace = s.trace := rfl
@[simp] theorem latchCommand_transfers (op : Nibble) (a b : Byte) : (latchCommand op a b s).transfers = s.transfers := rfl
@[simp] theorem latchCommand_host (op : Nibble) (a b : Byte) : (latchCommand op a b s).host = s.host := rfl
@[simp] theorem latchCommand_draws (op : Nibble) (a b : Byte) : (latchCommand op a b s).draws = s.draws := rfl
@[simp] theorem latchCommand_lcd (op : Nibble) (a b : Byte) : (latchCommand op a b s).lcd = s.lcd := rfl
@[simp] theorem latchCommand_freeIdx (op : Nibble) (a b : Byte) : (latchCommand op a b s).freeIdx = s.freeIdx := rfl

/-! `startSequence`. -/

@[simp] theorem startSequence_cfg (l : List MicroOp) : (startSequence l s).cfg = s.cfg := rfl
@[simp] theorem startSequence_rsQ (l : List MicroOp) : (startSequence l s).rsQ = s.rsQ := rfl
@[simp] theorem startSequence_eQ (l : List MicroOp) : (startSequence l s).eQ = s.eQ := rfl
@[simp] theorem startSequence_dQ (l : List MicroOp) : (startSequence l s).dQ = s.dQ := rfl
@[simp] theorem startSequence_columns (l : List MicroOp) : (startSequence l s).columns = s.columns := rfl
@[simp] theorem startSequence_rows (l : List MicroOp) : (startSequence l s).rows = s.rows := rfl
@[simp] theorem startSequence_initState (l : List MicroOp) : (startSequence l s).initState = s.initState := rfl
@[simp] theorem startSequence_busy (l : List MicroOp) : (startSequence l s).busy = true := rfl
@[simp] theorem startSequence_curOp (l : List MicroOp) : (startSequence l s).curOp = s.curOp := rfl
@[simp] theorem startSequence_argA (l : List MicroOp) : (startSequence l s).argA = s.argA := rfl
@[simp] theorem startSequence_argB (l : List MicroOp) : (startSequence l s).argB = s.argB := rfl
@[simp] theorem startSequence_seq (l : List MicroOp) : (startSequence l s).seq = l := rfl
@[simp] theorem startSequence_upc (l : List MicroOp) : (startSequence l s).upc = 0 := rfl
@[simp] theorem startSequence_timer (l : List MicroOp) : (startSequence l s).timer = s.timer := rfl
@[simp] theorem startSequence_fault (l : List MicroOp) : (startSequence l s).fault = s.fault := rfl
@[simp] theorem startSequence_cause (l : List MicroOp) : (startSequence l s).cause = s.cause := rfl
@[simp] theorem startSequence_faultOp (l : List MicroOp) : (startSequence l s).faultOp = s.faultOp := rfl
@[simp] theorem startSequence_rspValid (l : List MicroOp) : (startSequence l s).rspValid = s.rspValid := rfl
@[simp] theorem startSequence_rspData (l : List MicroOp) : (startSequence l s).rspData = s.rspData := rfl
@[simp] theorem startSequence_rspErr (l : List MicroOp) : (startSequence l s).rspErr = s.rspErr := rfl
@[simp] theorem startSequence_now (l : List MicroOp) : (startSequence l s).now = s.now := rfl
@[simp] theorem startSequence_trace (l : List MicroOp) : (startSequence l s).trace = s.trace := rfl
@[simp] theorem startSequence_transfers (l : List MicroOp) : (startSequence l s).transfers = s.transfers := rfl
@[simp] theorem startSequence_host (l : List MicroOp) : (startSequence l s).host = s.host := rfl
@[simp] theorem startSequence_draws (l : List MicroOp) : (startSequence l s).draws = s.draws := rfl
@[simp] theorem startSequence_lcd (l : List MicroOp) : (startSequence l s).lcd = s.lcd := rfl
@[simp] theorem startSequence_freeIdx (l : List MicroOp) : (startSequence l s).freeIdx = s.freeIdx := rfl

/-! `storeGeometry`. -/

@[simp] theorem storeGeometry_cfg (c r : Byte) : (storeGeometry c r s).cfg = s.cfg := rfl
@[simp] theorem storeGeometry_rsQ (c r : Byte) : (storeGeometry c r s).rsQ = s.rsQ := rfl
@[simp] theorem storeGeometry_eQ (c r : Byte) : (storeGeometry c r s).eQ = s.eQ := rfl
@[simp] theorem storeGeometry_dQ (c r : Byte) : (storeGeometry c r s).dQ = s.dQ := rfl
@[simp] theorem storeGeometry_columns (c r : Byte) : (storeGeometry c r s).columns = c := rfl
@[simp] theorem storeGeometry_rows (c r : Byte) : (storeGeometry c r s).rows = r := rfl
@[simp] theorem storeGeometry_initState (c r : Byte) : (storeGeometry c r s).initState = s.initState := rfl
@[simp] theorem storeGeometry_busy (c r : Byte) : (storeGeometry c r s).busy = s.busy := rfl
@[simp] theorem storeGeometry_curOp (c r : Byte) : (storeGeometry c r s).curOp = s.curOp := rfl
@[simp] theorem storeGeometry_argA (c r : Byte) : (storeGeometry c r s).argA = s.argA := rfl
@[simp] theorem storeGeometry_argB (c r : Byte) : (storeGeometry c r s).argB = s.argB := rfl
@[simp] theorem storeGeometry_seq (c r : Byte) : (storeGeometry c r s).seq = s.seq := rfl
@[simp] theorem storeGeometry_upc (c r : Byte) : (storeGeometry c r s).upc = s.upc := rfl
@[simp] theorem storeGeometry_timer (c r : Byte) : (storeGeometry c r s).timer = s.timer := rfl
@[simp] theorem storeGeometry_fault (c r : Byte) : (storeGeometry c r s).fault = s.fault := rfl
@[simp] theorem storeGeometry_cause (c r : Byte) : (storeGeometry c r s).cause = s.cause := rfl
@[simp] theorem storeGeometry_faultOp (c r : Byte) : (storeGeometry c r s).faultOp = s.faultOp := rfl
@[simp] theorem storeGeometry_rspValid (c r : Byte) : (storeGeometry c r s).rspValid = s.rspValid := rfl
@[simp] theorem storeGeometry_rspData (c r : Byte) : (storeGeometry c r s).rspData = s.rspData := rfl
@[simp] theorem storeGeometry_rspErr (c r : Byte) : (storeGeometry c r s).rspErr = s.rspErr := rfl
@[simp] theorem storeGeometry_now (c r : Byte) : (storeGeometry c r s).now = s.now := rfl
@[simp] theorem storeGeometry_trace (c r : Byte) : (storeGeometry c r s).trace = s.trace := rfl
@[simp] theorem storeGeometry_transfers (c r : Byte) : (storeGeometry c r s).transfers = s.transfers := rfl
@[simp] theorem storeGeometry_host (c r : Byte) : (storeGeometry c r s).host = s.host := rfl
@[simp] theorem storeGeometry_draws (c r : Byte) : (storeGeometry c r s).draws = s.draws := rfl
@[simp] theorem storeGeometry_lcd (c r : Byte) : (storeGeometry c r s).lcd = s.lcd := rfl
@[simp] theorem storeGeometry_freeIdx (c r : Byte) : (storeGeometry c r s).freeIdx = s.freeIdx := rfl

/-! `recordMicro`. -/

@[simp] theorem recordMicro_cfg (m : MicroOp) : (recordMicro m s).cfg = s.cfg := rfl
@[simp] theorem recordMicro_rsQ (m : MicroOp) : (recordMicro m s).rsQ = s.rsQ := rfl
@[simp] theorem recordMicro_eQ (m : MicroOp) : (recordMicro m s).eQ = s.eQ := rfl
@[simp] theorem recordMicro_dQ (m : MicroOp) : (recordMicro m s).dQ = s.dQ := rfl
@[simp] theorem recordMicro_columns (m : MicroOp) : (recordMicro m s).columns = s.columns := rfl
@[simp] theorem recordMicro_rows (m : MicroOp) : (recordMicro m s).rows = s.rows := rfl
@[simp] theorem recordMicro_initState (m : MicroOp) : (recordMicro m s).initState = s.initState := rfl
@[simp] theorem recordMicro_busy (m : MicroOp) : (recordMicro m s).busy = s.busy := rfl
@[simp] theorem recordMicro_curOp (m : MicroOp) : (recordMicro m s).curOp = s.curOp := rfl
@[simp] theorem recordMicro_argA (m : MicroOp) : (recordMicro m s).argA = s.argA := rfl
@[simp] theorem recordMicro_argB (m : MicroOp) : (recordMicro m s).argB = s.argB := rfl
@[simp] theorem recordMicro_seq (m : MicroOp) : (recordMicro m s).seq = s.seq := rfl
@[simp] theorem recordMicro_upc (m : MicroOp) : (recordMicro m s).upc = s.upc := rfl
@[simp] theorem recordMicro_timer (m : MicroOp) : (recordMicro m s).timer = s.timer := rfl
@[simp] theorem recordMicro_fault (m : MicroOp) : (recordMicro m s).fault = s.fault := rfl
@[simp] theorem recordMicro_cause (m : MicroOp) : (recordMicro m s).cause = s.cause := rfl
@[simp] theorem recordMicro_faultOp (m : MicroOp) : (recordMicro m s).faultOp = s.faultOp := rfl
@[simp] theorem recordMicro_rspValid (m : MicroOp) : (recordMicro m s).rspValid = s.rspValid := rfl
@[simp] theorem recordMicro_rspData (m : MicroOp) : (recordMicro m s).rspData = s.rspData := rfl
@[simp] theorem recordMicro_rspErr (m : MicroOp) : (recordMicro m s).rspErr = s.rspErr := rfl
@[simp] theorem recordMicro_now (m : MicroOp) : (recordMicro m s).now = s.now := rfl
@[simp] theorem recordMicro_trace (m : MicroOp) : (recordMicro m s).trace = s.trace ++ [⟨m, s.now⟩] := rfl
@[simp] theorem recordMicro_transfers (m : MicroOp) : (recordMicro m s).transfers = s.transfers := rfl
@[simp] theorem recordMicro_host (m : MicroOp) : (recordMicro m s).host = s.host := rfl
@[simp] theorem recordMicro_draws (m : MicroOp) : (recordMicro m s).draws = s.draws := rfl
@[simp] theorem recordMicro_lcd (m : MicroOp) : (recordMicro m s).lcd = s.lcd := rfl
@[simp] theorem recordMicro_freeIdx (m : MicroOp) : (recordMicro m s).freeIdx = s.freeIdx := rfl

/-! `advance`. -/

@[simp] theorem advance_cfg : (advance s).cfg = s.cfg := rfl
@[simp] theorem advance_rsQ : (advance s).rsQ = s.rsQ := rfl
@[simp] theorem advance_eQ : (advance s).eQ = s.eQ := rfl
@[simp] theorem advance_dQ : (advance s).dQ = s.dQ := rfl
@[simp] theorem advance_columns : (advance s).columns = s.columns := rfl
@[simp] theorem advance_rows : (advance s).rows = s.rows := rfl
@[simp] theorem advance_initState : (advance s).initState = s.initState := rfl
@[simp] theorem advance_busy : (advance s).busy = s.busy := rfl
@[simp] theorem advance_curOp : (advance s).curOp = s.curOp := rfl
@[simp] theorem advance_argA : (advance s).argA = s.argA := rfl
@[simp] theorem advance_argB : (advance s).argB = s.argB := rfl
@[simp] theorem advance_seq : (advance s).seq = s.seq := rfl
@[simp] theorem advance_upc : (advance s).upc = s.upc + 1 := rfl
@[simp] theorem advance_timer : (advance s).timer = s.timer := rfl
@[simp] theorem advance_fault : (advance s).fault = s.fault := rfl
@[simp] theorem advance_cause : (advance s).cause = s.cause := rfl
@[simp] theorem advance_faultOp : (advance s).faultOp = s.faultOp := rfl
@[simp] theorem advance_rspValid : (advance s).rspValid = s.rspValid := rfl
@[simp] theorem advance_rspData : (advance s).rspData = s.rspData := rfl
@[simp] theorem advance_rspErr : (advance s).rspErr = s.rspErr := rfl
@[simp] theorem advance_now : (advance s).now = s.now := rfl
@[simp] theorem advance_trace : (advance s).trace = s.trace := rfl
@[simp] theorem advance_transfers : (advance s).transfers = s.transfers := rfl
@[simp] theorem advance_host : (advance s).host = s.host := rfl
@[simp] theorem advance_draws : (advance s).draws = s.draws := rfl
@[simp] theorem advance_lcd : (advance s).lcd = s.lcd := rfl
@[simp] theorem advance_freeIdx : (advance s).freeIdx = s.freeIdx := rfl

/-! `recordTransfer`. -/

@[simp] theorem recordTransfer_cfg (t : Transfer) : (recordTransfer t s).cfg = s.cfg := rfl
@[simp] theorem recordTransfer_rsQ (t : Transfer) : (recordTransfer t s).rsQ = s.rsQ := rfl
@[simp] theorem recordTransfer_eQ (t : Transfer) : (recordTransfer t s).eQ = s.eQ := rfl
@[simp] theorem recordTransfer_dQ (t : Transfer) : (recordTransfer t s).dQ = s.dQ := rfl
@[simp] theorem recordTransfer_columns (t : Transfer) : (recordTransfer t s).columns = s.columns := rfl
@[simp] theorem recordTransfer_rows (t : Transfer) : (recordTransfer t s).rows = s.rows := rfl
@[simp] theorem recordTransfer_initState (t : Transfer) : (recordTransfer t s).initState = s.initState := rfl
@[simp] theorem recordTransfer_busy (t : Transfer) : (recordTransfer t s).busy = s.busy := rfl
@[simp] theorem recordTransfer_curOp (t : Transfer) : (recordTransfer t s).curOp = s.curOp := rfl
@[simp] theorem recordTransfer_argA (t : Transfer) : (recordTransfer t s).argA = s.argA := rfl
@[simp] theorem recordTransfer_argB (t : Transfer) : (recordTransfer t s).argB = s.argB := rfl
@[simp] theorem recordTransfer_seq (t : Transfer) : (recordTransfer t s).seq = s.seq := rfl
@[simp] theorem recordTransfer_upc (t : Transfer) : (recordTransfer t s).upc = s.upc := rfl
@[simp] theorem recordTransfer_timer (t : Transfer) : (recordTransfer t s).timer = s.timer := rfl
@[simp] theorem recordTransfer_fault (t : Transfer) : (recordTransfer t s).fault = s.fault := rfl
@[simp] theorem recordTransfer_cause (t : Transfer) : (recordTransfer t s).cause = s.cause := rfl
@[simp] theorem recordTransfer_faultOp (t : Transfer) : (recordTransfer t s).faultOp = s.faultOp := rfl
@[simp] theorem recordTransfer_rspValid (t : Transfer) : (recordTransfer t s).rspValid = s.rspValid := rfl
@[simp] theorem recordTransfer_rspData (t : Transfer) : (recordTransfer t s).rspData = s.rspData := rfl
@[simp] theorem recordTransfer_rspErr (t : Transfer) : (recordTransfer t s).rspErr = s.rspErr := rfl
@[simp] theorem recordTransfer_now (t : Transfer) : (recordTransfer t s).now = s.now := rfl
@[simp] theorem recordTransfer_trace (t : Transfer) : (recordTransfer t s).trace = s.trace := rfl
@[simp] theorem recordTransfer_transfers (t : Transfer) : (recordTransfer t s).transfers = s.transfers ++ [t] := rfl
@[simp] theorem recordTransfer_host (t : Transfer) : (recordTransfer t s).host = s.host := rfl
@[simp] theorem recordTransfer_draws (t : Transfer) : (recordTransfer t s).draws = s.draws := rfl
@[simp] theorem recordTransfer_lcd (t : Transfer) : (recordTransfer t s).lcd = s.lcd := rfl
@[simp] theorem recordTransfer_freeIdx (t : Transfer) : (recordTransfer t s).freeIdx = s.freeIdx := rfl

/-! `driveRS`. -/

@[simp] theorem driveRS_cfg (l : Bool) : (driveRS l s).cfg = s.cfg := rfl
@[simp] theorem driveRS_rsQ (l : Bool) : (driveRS l s).rsQ = l := rfl
@[simp] theorem driveRS_eQ (l : Bool) : (driveRS l s).eQ = s.eQ := rfl
@[simp] theorem driveRS_dQ (l : Bool) : (driveRS l s).dQ = s.dQ := rfl
@[simp] theorem driveRS_columns (l : Bool) : (driveRS l s).columns = s.columns := rfl
@[simp] theorem driveRS_rows (l : Bool) : (driveRS l s).rows = s.rows := rfl
@[simp] theorem driveRS_initState (l : Bool) : (driveRS l s).initState = s.initState := rfl
@[simp] theorem driveRS_busy (l : Bool) : (driveRS l s).busy = s.busy := rfl
@[simp] theorem driveRS_curOp (l : Bool) : (driveRS l s).curOp = s.curOp := rfl
@[simp] theorem driveRS_argA (l : Bool) : (driveRS l s).argA = s.argA := rfl
@[simp] theorem driveRS_argB (l : Bool) : (driveRS l s).argB = s.argB := rfl
@[simp] theorem driveRS_seq (l : Bool) : (driveRS l s).seq = s.seq := rfl
@[simp] theorem driveRS_upc (l : Bool) : (driveRS l s).upc = s.upc := rfl
@[simp] theorem driveRS_timer (l : Bool) : (driveRS l s).timer = s.timer := rfl
@[simp] theorem driveRS_fault (l : Bool) : (driveRS l s).fault = s.fault := rfl
@[simp] theorem driveRS_cause (l : Bool) : (driveRS l s).cause = s.cause := rfl
@[simp] theorem driveRS_faultOp (l : Bool) : (driveRS l s).faultOp = s.faultOp := rfl
@[simp] theorem driveRS_rspValid (l : Bool) : (driveRS l s).rspValid = s.rspValid := rfl
@[simp] theorem driveRS_rspData (l : Bool) : (driveRS l s).rspData = s.rspData := rfl
@[simp] theorem driveRS_rspErr (l : Bool) : (driveRS l s).rspErr = s.rspErr := rfl
@[simp] theorem driveRS_now (l : Bool) : (driveRS l s).now = s.now := rfl
@[simp] theorem driveRS_trace (l : Bool) : (driveRS l s).trace = s.trace := rfl
@[simp] theorem driveRS_transfers (l : Bool) : (driveRS l s).transfers = s.transfers := rfl
@[simp] theorem driveRS_host (l : Bool) : (driveRS l s).host = s.host := rfl
@[simp] theorem driveRS_draws (l : Bool) : (driveRS l s).draws = s.draws := rfl
@[simp] theorem driveRS_lcd (l : Bool) : (driveRS l s).lcd = s.lcd := rfl
@[simp] theorem driveRS_freeIdx (l : Bool) : (driveRS l s).freeIdx = s.freeIdx := rfl

/-! `driveE`. -/

@[simp] theorem driveE_cfg (l : Bool) : (driveE l s).cfg = s.cfg := rfl
@[simp] theorem driveE_rsQ (l : Bool) : (driveE l s).rsQ = s.rsQ := rfl
@[simp] theorem driveE_eQ (l : Bool) : (driveE l s).eQ = l := rfl
@[simp] theorem driveE_dQ (l : Bool) : (driveE l s).dQ = s.dQ := rfl
@[simp] theorem driveE_columns (l : Bool) : (driveE l s).columns = s.columns := rfl
@[simp] theorem driveE_rows (l : Bool) : (driveE l s).rows = s.rows := rfl
@[simp] theorem driveE_initState (l : Bool) : (driveE l s).initState = s.initState := rfl
@[simp] theorem driveE_busy (l : Bool) : (driveE l s).busy = s.busy := rfl
@[simp] theorem driveE_curOp (l : Bool) : (driveE l s).curOp = s.curOp := rfl
@[simp] theorem driveE_argA (l : Bool) : (driveE l s).argA = s.argA := rfl
@[simp] theorem driveE_argB (l : Bool) : (driveE l s).argB = s.argB := rfl
@[simp] theorem driveE_seq (l : Bool) : (driveE l s).seq = s.seq := rfl
@[simp] theorem driveE_upc (l : Bool) : (driveE l s).upc = s.upc := rfl
@[simp] theorem driveE_timer (l : Bool) : (driveE l s).timer = s.timer := rfl
@[simp] theorem driveE_fault (l : Bool) : (driveE l s).fault = s.fault := rfl
@[simp] theorem driveE_cause (l : Bool) : (driveE l s).cause = s.cause := rfl
@[simp] theorem driveE_faultOp (l : Bool) : (driveE l s).faultOp = s.faultOp := rfl
@[simp] theorem driveE_rspValid (l : Bool) : (driveE l s).rspValid = s.rspValid := rfl
@[simp] theorem driveE_rspData (l : Bool) : (driveE l s).rspData = s.rspData := rfl
@[simp] theorem driveE_rspErr (l : Bool) : (driveE l s).rspErr = s.rspErr := rfl
@[simp] theorem driveE_now (l : Bool) : (driveE l s).now = s.now := rfl
@[simp] theorem driveE_trace (l : Bool) : (driveE l s).trace = s.trace := rfl
@[simp] theorem driveE_transfers (l : Bool) : (driveE l s).transfers = s.transfers := rfl
@[simp] theorem driveE_host (l : Bool) : (driveE l s).host = s.host := rfl
@[simp] theorem driveE_draws (l : Bool) : (driveE l s).draws = s.draws := rfl
@[simp] theorem driveE_lcd (l : Bool) : (driveE l s).lcd = s.lcd := rfl
@[simp] theorem driveE_freeIdx (l : Bool) : (driveE l s).freeIdx = s.freeIdx := rfl

/-! `driveD`. -/

@[simp] theorem driveD_cfg (v : Byte) : (driveD v s).cfg = s.cfg := rfl
@[simp] theorem driveD_rsQ (v : Byte) : (driveD v s).rsQ = s.rsQ := rfl
@[simp] theorem driveD_eQ (v : Byte) : (driveD v s).eQ = s.eQ := rfl
@[simp] theorem driveD_dQ (v : Byte) : (driveD v s).dQ = onDataLines s.cfg.busMode v := rfl
@[simp] theorem driveD_columns (v : Byte) : (driveD v s).columns = s.columns := rfl
@[simp] theorem driveD_rows (v : Byte) : (driveD v s).rows = s.rows := rfl
@[simp] theorem driveD_initState (v : Byte) : (driveD v s).initState = s.initState := rfl
@[simp] theorem driveD_busy (v : Byte) : (driveD v s).busy = s.busy := rfl
@[simp] theorem driveD_curOp (v : Byte) : (driveD v s).curOp = s.curOp := rfl
@[simp] theorem driveD_argA (v : Byte) : (driveD v s).argA = s.argA := rfl
@[simp] theorem driveD_argB (v : Byte) : (driveD v s).argB = s.argB := rfl
@[simp] theorem driveD_seq (v : Byte) : (driveD v s).seq = s.seq := rfl
@[simp] theorem driveD_upc (v : Byte) : (driveD v s).upc = s.upc := rfl
@[simp] theorem driveD_timer (v : Byte) : (driveD v s).timer = s.timer := rfl
@[simp] theorem driveD_fault (v : Byte) : (driveD v s).fault = s.fault := rfl
@[simp] theorem driveD_cause (v : Byte) : (driveD v s).cause = s.cause := rfl
@[simp] theorem driveD_faultOp (v : Byte) : (driveD v s).faultOp = s.faultOp := rfl
@[simp] theorem driveD_rspValid (v : Byte) : (driveD v s).rspValid = s.rspValid := rfl
@[simp] theorem driveD_rspData (v : Byte) : (driveD v s).rspData = s.rspData := rfl
@[simp] theorem driveD_rspErr (v : Byte) : (driveD v s).rspErr = s.rspErr := rfl
@[simp] theorem driveD_now (v : Byte) : (driveD v s).now = s.now := rfl
@[simp] theorem driveD_trace (v : Byte) : (driveD v s).trace = s.trace := rfl
@[simp] theorem driveD_transfers (v : Byte) : (driveD v s).transfers = s.transfers := rfl
@[simp] theorem driveD_host (v : Byte) : (driveD v s).host = s.host := rfl
@[simp] theorem driveD_draws (v : Byte) : (driveD v s).draws = s.draws := rfl
@[simp] theorem driveD_lcd (v : Byte) : (driveD v s).lcd = s.lcd := rfl
@[simp] theorem driveD_freeIdx (v : Byte) : (driveD v s).freeIdx = s.freeIdx := rfl

/-! `useFree`. -/

@[simp] theorem useFree_cfg : (useFree s).cfg = s.cfg := rfl
@[simp] theorem useFree_rsQ : (useFree s).rsQ = s.rsQ := rfl
@[simp] theorem useFree_eQ : (useFree s).eQ = s.eQ := rfl
@[simp] theorem useFree_dQ : (useFree s).dQ = s.dQ := rfl
@[simp] theorem useFree_columns : (useFree s).columns = s.columns := rfl
@[simp] theorem useFree_rows : (useFree s).rows = s.rows := rfl
@[simp] theorem useFree_initState : (useFree s).initState = s.initState := rfl
@[simp] theorem useFree_busy : (useFree s).busy = s.busy := rfl
@[simp] theorem useFree_curOp : (useFree s).curOp = s.curOp := rfl
@[simp] theorem useFree_argA : (useFree s).argA = s.argA := rfl
@[simp] theorem useFree_argB : (useFree s).argB = s.argB := rfl
@[simp] theorem useFree_seq : (useFree s).seq = s.seq := rfl
@[simp] theorem useFree_upc : (useFree s).upc = s.upc := rfl
@[simp] theorem useFree_timer : (useFree s).timer = s.timer := rfl
@[simp] theorem useFree_fault : (useFree s).fault = s.fault := rfl
@[simp] theorem useFree_cause : (useFree s).cause = s.cause := rfl
@[simp] theorem useFree_faultOp : (useFree s).faultOp = s.faultOp := rfl
@[simp] theorem useFree_rspValid : (useFree s).rspValid = s.rspValid := rfl
@[simp] theorem useFree_rspData : (useFree s).rspData = s.rspData := rfl
@[simp] theorem useFree_rspErr : (useFree s).rspErr = s.rspErr := rfl
@[simp] theorem useFree_now : (useFree s).now = s.now := rfl
@[simp] theorem useFree_trace : (useFree s).trace = s.trace := rfl
@[simp] theorem useFree_transfers : (useFree s).transfers = s.transfers := rfl
@[simp] theorem useFree_host : (useFree s).host = s.host := rfl
@[simp] theorem useFree_draws : (useFree s).draws = s.draws := rfl
@[simp] theorem useFree_lcd : (useFree s).lcd = s.lcd := rfl
@[simp] theorem useFree_freeIdx : (useFree s).freeIdx = s.freeIdx + 1 := rfl

/-! `setTimer`. -/

@[simp] theorem setTimer_cfg (n : Nat) : (setTimer n s).cfg = s.cfg := rfl
@[simp] theorem setTimer_rsQ (n : Nat) : (setTimer n s).rsQ = s.rsQ := rfl
@[simp] theorem setTimer_eQ (n : Nat) : (setTimer n s).eQ = s.eQ := rfl
@[simp] theorem setTimer_dQ (n : Nat) : (setTimer n s).dQ = s.dQ := rfl
@[simp] theorem setTimer_columns (n : Nat) : (setTimer n s).columns = s.columns := rfl
@[simp] theorem setTimer_rows (n : Nat) : (setTimer n s).rows = s.rows := rfl
@[simp] theorem setTimer_initState (n : Nat) : (setTimer n s).initState = s.initState := rfl
@[simp] theorem setTimer_busy (n : Nat) : (setTimer n s).busy = s.busy := rfl
@[simp] theorem setTimer_curOp (n : Nat) : (setTimer n s).curOp = s.curOp := rfl
@[simp] theorem setTimer_argA (n : Nat) : (setTimer n s).argA = s.argA := rfl
@[simp] theorem setTimer_argB (n : Nat) : (setTimer n s).argB = s.argB := rfl
@[simp] theorem setTimer_seq (n : Nat) : (setTimer n s).seq = s.seq := rfl
@[simp] theorem setTimer_upc (n : Nat) : (setTimer n s).upc = s.upc := rfl
@[simp] theorem setTimer_timer (n : Nat) : (setTimer n s).timer = n := rfl
@[simp] theorem setTimer_fault (n : Nat) : (setTimer n s).fault = s.fault := rfl
@[simp] theorem setTimer_cause (n : Nat) : (setTimer n s).cause = s.cause := rfl
@[simp] theorem setTimer_faultOp (n : Nat) : (setTimer n s).faultOp = s.faultOp := rfl
@[simp] theorem setTimer_rspValid (n : Nat) : (setTimer n s).rspValid = s.rspValid := rfl
@[simp] theorem setTimer_rspData (n : Nat) : (setTimer n s).rspData = s.rspData := rfl
@[simp] theorem setTimer_rspErr (n : Nat) : (setTimer n s).rspErr = s.rspErr := rfl
@[simp] theorem setTimer_now (n : Nat) : (setTimer n s).now = s.now := rfl
@[simp] theorem setTimer_trace (n : Nat) : (setTimer n s).trace = s.trace := rfl
@[simp] theorem setTimer_transfers (n : Nat) : (setTimer n s).transfers = s.transfers := rfl
@[simp] theorem setTimer_host (n : Nat) : (setTimer n s).host = s.host := rfl
@[simp] theorem setTimer_draws (n : Nat) : (setTimer n s).draws = s.draws := rfl
@[simp] theorem setTimer_lcd (n : Nat) : (setTimer n s).lcd = s.lcd := rfl
@[simp] theorem setTimer_freeIdx (n : Nat) : (setTimer n s).freeIdx = s.freeIdx := rfl

/-! `completeCommand`. -/

@[simp] theorem completeCommand_cfg : (completeCommand s).cfg = s.cfg := rfl
@[simp] theorem completeCommand_rsQ : (completeCommand s).rsQ = s.rsQ := rfl
@[simp] theorem completeCommand_eQ : (completeCommand s).eQ = s.eQ := rfl
@[simp] theorem completeCommand_dQ : (completeCommand s).dQ = s.dQ := rfl
@[simp] theorem completeCommand_columns : (completeCommand s).columns = s.columns := rfl
@[simp] theorem completeCommand_rows : (completeCommand s).rows = s.rows := rfl
@[simp] theorem completeCommand_initState : (completeCommand s).initState = initAfter s.curOp s.initState := rfl
@[simp] theorem completeCommand_busy : (completeCommand s).busy = false := rfl
@[simp] theorem completeCommand_curOp : (completeCommand s).curOp = s.curOp := rfl
@[simp] theorem completeCommand_argA : (completeCommand s).argA = s.argA := rfl
@[simp] theorem completeCommand_argB : (completeCommand s).argB = s.argB := rfl
@[simp] theorem completeCommand_seq : (completeCommand s).seq = s.seq := rfl
@[simp] theorem completeCommand_upc : (completeCommand s).upc = s.upc := rfl
@[simp] theorem completeCommand_timer : (completeCommand s).timer = s.timer := rfl
@[simp] theorem completeCommand_fault : (completeCommand s).fault = s.fault := rfl
@[simp] theorem completeCommand_cause : (completeCommand s).cause = s.cause := rfl
@[simp] theorem completeCommand_faultOp : (completeCommand s).faultOp = s.faultOp := rfl
@[simp] theorem completeCommand_rspValid : (completeCommand s).rspValid = true := rfl
@[simp] theorem completeCommand_rspData : (completeCommand s).rspData = responseData s := rfl
@[simp] theorem completeCommand_rspErr : (completeCommand s).rspErr = false := rfl
@[simp] theorem completeCommand_now : (completeCommand s).now = s.now := rfl
@[simp] theorem completeCommand_trace : (completeCommand s).trace = s.trace := rfl
@[simp] theorem completeCommand_transfers : (completeCommand s).transfers = s.transfers := rfl
@[simp] theorem completeCommand_host : (completeCommand s).host = s.host := rfl
@[simp] theorem completeCommand_draws : (completeCommand s).draws = s.draws := rfl
@[simp] theorem completeCommand_lcd : (completeCommand s).lcd = s.lcd := rfl
@[simp] theorem completeCommand_freeIdx : (completeCommand s).freeIdx = s.freeIdx := rfl

/-! `beginCycle`. -/

@[simp] theorem beginCycle_cfg : (beginCycle s).cfg = s.cfg := rfl
@[simp] theorem beginCycle_rsQ : (beginCycle s).rsQ = s.rsQ := rfl
@[simp] theorem beginCycle_eQ : (beginCycle s).eQ = s.eQ := rfl
@[simp] theorem beginCycle_dQ : (beginCycle s).dQ = s.dQ := rfl
@[simp] theorem beginCycle_columns : (beginCycle s).columns = s.columns := rfl
@[simp] theorem beginCycle_rows : (beginCycle s).rows = s.rows := rfl
@[simp] theorem beginCycle_initState : (beginCycle s).initState = s.initState := rfl
@[simp] theorem beginCycle_busy : (beginCycle s).busy = s.busy := rfl
@[simp] theorem beginCycle_curOp : (beginCycle s).curOp = s.curOp := rfl
@[simp] theorem beginCycle_argA : (beginCycle s).argA = s.argA := rfl
@[simp] theorem beginCycle_argB : (beginCycle s).argB = s.argB := rfl
@[simp] theorem beginCycle_seq : (beginCycle s).seq = s.seq := rfl
@[simp] theorem beginCycle_upc : (beginCycle s).upc = s.upc := rfl
@[simp] theorem beginCycle_timer : (beginCycle s).timer = s.timer := rfl
@[simp] theorem beginCycle_fault : (beginCycle s).fault = s.fault := rfl
@[simp] theorem beginCycle_cause : (beginCycle s).cause = s.cause := rfl
@[simp] theorem beginCycle_faultOp : (beginCycle s).faultOp = s.faultOp := rfl
@[simp] theorem beginCycle_rspValid : (beginCycle s).rspValid = false := rfl
@[simp] theorem beginCycle_rspData : (beginCycle s).rspData = s.rspData := rfl
@[simp] theorem beginCycle_rspErr : (beginCycle s).rspErr = s.rspErr := rfl
@[simp] theorem beginCycle_now : (beginCycle s).now = s.now + 1 := rfl
@[simp] theorem beginCycle_trace : (beginCycle s).trace = s.trace := rfl
@[simp] theorem beginCycle_transfers : (beginCycle s).transfers = s.transfers := rfl
@[simp] theorem beginCycle_host : (beginCycle s).host = s.host := rfl
@[simp] theorem beginCycle_draws : (beginCycle s).draws = s.draws.tail := rfl
@[simp] theorem beginCycle_lcd : (beginCycle s).lcd = s.lcd := rfl
@[simp] theorem beginCycle_freeIdx : (beginCycle s).freeIdx = s.freeIdx := rfl

/-! `takeCommand`. -/

@[simp] theorem takeCommand_cfg : (takeCommand s).cfg = s.cfg := rfl
@[simp] theorem takeCommand_rsQ : (takeCommand s).rsQ = s.rsQ := rfl
@[simp] theorem takeCommand_eQ : (takeCommand s).eQ = s.eQ := rfl
@[simp] theorem takeCommand_dQ : (takeCommand s).dQ = s.dQ := rfl
@[simp] theorem takeCommand_columns : (takeCommand s).columns = s.columns := rfl
@[simp] theorem takeCommand_rows : (takeCommand s).rows = s.rows := rfl
@[simp] theorem takeCommand_initState : (takeCommand s).initState = s.initState := rfl
@[simp] theorem takeCommand_busy : (takeCommand s).busy = s.busy := rfl
@[simp] theorem takeCommand_curOp : (takeCommand s).curOp = s.curOp := rfl
@[simp] theorem takeCommand_argA : (takeCommand s).argA = s.argA := rfl
@[simp] theorem takeCommand_argB : (takeCommand s).argB = s.argB := rfl
@[simp] theorem takeCommand_seq : (takeCommand s).seq = s.seq := rfl
@[simp] theorem takeCommand_upc : (takeCommand s).upc = s.upc := rfl
@[simp] theorem takeCommand_timer : (takeCommand s).timer = s.timer := rfl
@[simp] theorem takeCommand_fault : (takeCommand s).fault = s.fault := rfl
@[simp] theorem takeCommand_cause : (takeCommand s).cause = s.cause := rfl
@[simp] theorem takeCommand_faultOp : (takeCommand s).faultOp = s.faultOp := rfl
@[simp] theorem takeCommand_rspValid : (takeCommand s).rspValid = s.rspValid := rfl
@[simp] theorem takeCommand_rspData : (takeCommand s).rspData = s.rspData := rfl
@[simp] theorem takeCommand_rspErr : (takeCommand s).rspErr = s.rspErr := rfl
@[simp] theorem takeCommand_now : (takeCommand s).now = s.now := rfl
@[simp] theorem takeCommand_trace : (takeCommand s).trace = s.trace := rfl
@[simp] theorem takeCommand_transfers : (takeCommand s).transfers = s.transfers := rfl
@[simp] theorem takeCommand_host : (takeCommand s).host = s.host.tail := rfl
@[simp] theorem takeCommand_draws : (takeCommand s).draws = s.draws := rfl
@[simp] theorem takeCommand_lcd : (takeCommand s).lcd = s.lcd := rfl
@[simp] theorem takeCommand_freeIdx : (takeCommand s).freeIdx = s.freeIdx := rfl

/-! `withLcd`. -/

@[simp] theorem withLcd_cfg (l : Lcd) : (withLcd l s).cfg = s.cfg := rfl
@[simp] theorem withLcd_rsQ (l : Lcd) : (withLcd l s).rsQ = s.rsQ := rfl
@[simp] theorem withLcd_eQ (l : Lcd) : (withLcd l s).eQ = s.eQ := rfl
@[simp] theorem withLcd_dQ (l : Lcd) : (withLcd l s).dQ = s.dQ := rfl
@[simp] theorem withLcd_columns (l : Lcd) : (withLcd l s).columns = s.columns := rfl
@[simp] theorem withLcd_rows (l : Lcd) : (withLcd l s).rows = s.rows := rfl
@[simp] theorem withLcd_initState (l : Lcd) : (withLcd l s).initState = s.initState := rfl
@[simp] theorem withLcd_busy (l : Lcd) : (withLcd l s).busy = s.busy := rfl
@[simp] theorem withLcd_curOp (l : Lcd) : (withLcd l s).curOp = s.curOp := rfl
@[simp] theorem withLcd_argA (l : Lcd) : (withLcd l s).argA = s.argA := rfl
@[simp] theorem withLcd_argB (l : Lcd) : (withLcd l s).argB = s.argB := rfl
@[simp] theorem withLcd_seq (l : Lcd) : (withLcd l s).seq = s.seq := rfl
@[simp] theorem withLcd_upc (l : Lcd) : (withLcd l s).upc = s.upc := rfl
@[simp] theorem withLcd_timer (l : Lcd) : (withLcd l s).timer = s.timer := rfl
@[simp] theorem withLcd_fault (l : Lcd) : (withLcd l s).fault = s.fault := rfl
@[simp] theorem withLcd_cause (l : Lcd) : (withLcd l s).cause = s.cause := rfl
@[simp] theorem withLcd_faultOp (l : Lcd) : (withLcd l s).faultOp = s.faultOp := rfl
@[simp] theorem withLcd_rspValid (l : Lcd) : (withLcd l s).rspValid = s.rspValid := rfl
@[simp] theorem withLcd_rspData (l : Lcd) : (withLcd l s).rspData = s.rspData := rfl
@[simp] theorem withLcd_rspErr (l : Lcd) : (withLcd l s).rspErr = s.rspErr := rfl
@[simp] theorem withLcd_now (l : Lcd) : (withLcd l s).now = s.now := rfl
@[simp] theorem withLcd_trace (l : Lcd) : (withLcd l s).trace = s.trace := rfl
@[simp] theorem withLcd_transfers (l : Lcd) : (withLcd l s).transfers = s.transfers := rfl
@[simp] theorem withLcd_host (l : Lcd) : (withLcd l s).host = s.host := rfl
@[simp] theorem withLcd_draws (l : Lcd) : (withLcd l s).draws = s.draws := rfl
@[simp] theorem withLcd_lcd (l : Lcd) : (withLcd l s).lcd = l := rfl
@[simp] theorem withLcd_freeIdx (l : Lcd) : (withLcd l s).freeIdx = s.freeIdx := rfl

/-! `resetObserved`. -/

@[simp] theorem resetObserved_cfg : (resetObserved s).cfg = s.cfg := rfl
@[simp] theorem resetObserved_rsQ : (resetObserved s).rsQ = s.rsQ := rfl
@[simp] theorem resetObserved_eQ : (resetObserved s).eQ = s.eQ := rfl
@[simp] theorem resetObserved_dQ : (resetObserved s).dQ = s.dQ := rfl
@[simp] theorem resetObserved_columns : (resetObserved s).columns = s.columns := rfl
@[simp] theorem resetObserved_rows : (resetObserved s).rows = s.rows := rfl
@[simp] theorem resetObserved_initState : (resetObserved s).initState = s.initState := rfl
@[simp] theorem resetObserved_busy : (resetObserved s).busy = s.busy := rfl
@[simp] theorem resetObserved_curOp : (resetObserved s).curOp = s.curOp := rfl
@[simp] theorem resetObserved_argA : (resetObserved s).argA = s.argA := rfl
@[simp] theorem resetObserved_argB : (resetObserved s).argB = s.argB := rfl
@[simp] theorem resetObserved_seq : (resetObserved s).seq = s.seq := rfl
@[simp] theorem resetObserved_upc : (resetObserved s).upc = s.upc := rfl
@[simp] theorem resetObserved_timer : (resetObserved s).timer = s.timer := rfl
@[simp] theorem resetObserved_fault : (resetObserved s).fault = s.fault := rfl
@[simp] theorem resetObserved_cause : (resetObserved s).cause = s.cause := rfl
@[simp] theorem resetObserved_faultOp : (resetObserved s).faultOp = s.faultOp := rfl
@[simp] theorem resetObserved_rspValid : (resetObserved s).rspValid = s.rspValid := rfl
@[simp] theorem resetObserved_rspData : (resetObserved s).rspData = s.rspData := rfl
@[simp] theorem resetObserved_rspErr : (resetObserved s).rspErr = s.rspErr := rfl
@[simp] theorem resetObserved_now : (resetObserved s).now = s.now := rfl
@[simp] theorem resetObserved_trace : (resetObserved s).trace = s.trace := rfl
@[simp] theorem resetObserved_transfers : (resetObserved s).transfers = s.transfers ++ resetTransfer s := rfl
@[simp] theorem resetObserved_host : (resetObserved s).host = s.host := rfl
@[simp] theorem resetObserved_draws : (resetObserved s).draws = s.draws := rfl
@[simp] theorem resetObserved_lcd : (resetObserved s).lcd = s.lcd := rfl
@[simp] theorem resetObserved_freeIdx : (resetObserved s).freeIdx = if s.eQ then s.freeIdx + 1 else s.freeIdx := rfl

end Sys2Proof.Machine
end

