-- ==== Sys2Proof/Laws/Timing.lean ====
section
/-! SUPPORT. What elaboration's checks say of every delay: at least its default, at least one cycle, and within the
timer's register. -/

namespace Sys2Proof.Machine

theorem mem_allDelays (w : Delay) : w ∈ allDelays := by cases w <;> decide

theorem buildable_iff (c : Config) :
    buildable c = true ↔ dataCountOk c = true ∧ clockOk c = true ∧ delaysOk c = true ∧ timerOk c = true := by
  simp [buildable, and_assoc]

theorem default_le_delay {c : Config} (h : buildable c = true) (w : Delay) :
    delayNs defaultDelays w ≤ delayNs c.delays w := by
  have hd := ((buildable_iff c).1 h).2.2.1
  simp only [delaysOk, List.all_eq_true, decide_eq_true_eq] at hd
  exact hd w (mem_allDelays w)

theorem clock_pos {c : Config} (h : buildable c = true) : 0 < c.fClkHz := by
  simpa [clockOk] using ((buildable_iff c).1 h).2.1

theorem nData_eq {c : Config} (h : buildable c = true) : c.nData = dataLines c.busMode := by
  simpa [dataCountOk] using ((buildable_iff c).1 h).1

theorem cyc_lt {c : Config} (h : buildable c = true) (w : Delay) : cyc c w < 2 ^ c.timerW := by
  have ht := ((buildable_iff c).1 h).2.2.2
  simp only [timerOk, List.all_eq_true, decide_eq_true_eq] at ht
  exact ht w (mem_allDelays w)

/-- No default is 0, so every wait has a cycle. -/
theorem cyc_pos {c : Config} (h : buildable c = true) (w : Delay) : 0 < cyc c w := by
  have hd := default_le_delay h w
  have hw : 0 < delayNs defaultDelays w := by cases w <;> decide
  have : 0 < delayNs c.delays w * c.fClkHz := Nat.mul_pos (by omega) (clock_pos h)
  unfold cyc ceilDiv
  split <;> omega

theorem waitCycles_eq {c : Config} (h : buildable c = true) (w : Delay) : waitCycles c w = cyc c w := by
  have := cyc_pos h w
  unfold waitCycles
  omega

theorem waitCycles_pos (c : Config) (w : Delay) : 0 < waitCycles c w := by
  unfold waitCycles
  omega

theorem one_lt_timerRange {c : Config} (h : buildable c = true) : 1 < 2 ^ c.timerW :=
  lt_of_le_of_lt (cyc_pos h .tRs) (cyc_lt h .tRs)

/-- The register holds what a wait loads. -/
theorem timerLoad_eq {c : Config} (h : buildable c = true) (w : Delay) : timerLoad c w = waitCycles c w - 1 := by
  have := cyc_lt h w
  have := waitCycles_eq h w
  exact Nat.mod_eq_of_lt (by omega)

/-- A wait is at least as long as its constant (R13): `cyc` rounds up. -/
theorem delay_le_waitCycles (c : Config) (w : Delay) :
    delayNs c.delays w * c.fClkHz ≤ waitCycles c w * 1000000000 := by
  unfold waitCycles cyc ceilDiv
  split <;> omega

theorem sequenceCycles_nil (c : Config) : sequenceCycles c [] = 0 := rfl

theorem sequenceCycles_cons (c : Config) (m : MicroOp) (l : List MicroOp) :
    sequenceCycles c (m :: l) = microCycles c m + sequenceCycles c l := by
  simp [sequenceCycles]

theorem sequenceCycles_append (c : Config) (l l' : List MicroOp) :
    sequenceCycles c (l ++ l') = sequenceCycles c l + sequenceCycles c l' := by
  simp [sequenceCycles]

end Sys2Proof.Machine
end

