-- ==== Sys2Proof/Laws/Ops.lean ====
section
/-! SUPPORT. What each shared operation can do: acceptance, the checks, a cycle of a wait, a failed drive. -/

namespace Sys2Proof.Machine

theorem idle_iff (s : State) : idle s = true ↔ s.busy = false ∧ s.fault = false := by simp [idle]

theorem currentDraw_of_head {s : State} (h : ∀ d ∈ s.draws.head?, d.rstN = true) : (currentDraw s).rstN = true := by
  unfold currentDraw
  cases hd : s.draws with
  | nil => rfl
  | cons d ds => simpa [hd] using h

/-! Acceptance. -/

theorem acceptCommand_of_idle {s : State} (hb : s.busy = false) (hf : s.fault = false) (op : Nibble) (a b : Byte)
    (body : State → State) : acceptCommand op a b body s = body (latchCommand op a b s) := by
  simp [acceptCommand, (idle_iff s).2 ⟨hb, hf⟩]

theorem acceptCommand_of_not_idle {s : State} (h : s.busy = true ∨ s.fault = true) (op : Nibble) (a b : Byte)
    (body : State → State) : acceptCommand op a b body s = s := by
  have : ¬ idle s = true := by
    rw [idle_iff]
    rcases h with h | h <;> simp [h]
  simp [acceptCommand, this]

theorem uninitTrap_iff (s : State) :
    uninitTrap s = true ↔ s.cfg.trapUninit = true ∧ s.initState = .uninit ∧ displayOp s.curOp = true := by
  simp [uninitTrap, and_assoc]

theorem checkUninit_of_trap {s : State} (h : uninitTrap s = true) (body : State → State) :
    checkUninit body s = raiseFault .uninitUse s := by simp [checkUninit, h]

theorem checkUninit_of_no_trap {s : State} (h : s.cfg.trapUninit = false ∨ s.initState = .ready)
    (body : State → State) : checkUninit body s = body s := by
  have : ¬ uninitTrap s = true := by
    rw [uninitTrap_iff]
    rcases h with h | h <;> simp [h]
  simp [checkUninit, this]

/-! Waits: the cycles of one wait, one lemma each. -/

theorem waitCycle_first_more {s : State} {t : Delay} {hold : Bool} (h0 : s.timer = 0)
    (h : firstLoad hold (timerLoad s.cfg t) ≠ 0) :
    waitCycle t hold s = setTimer (firstLoad hold (timerLoad s.cfg t)) (recordMicro (.wait t) s) := by
  simp [waitCycle, h0, h]

theorem waitCycle_first_only {s : State} {t : Delay} {hold : Bool} (h0 : s.timer = 0)
    (h : firstLoad hold (timerLoad s.cfg t) = 0) : waitCycle t hold s = advance (recordMicro (.wait t) s) := by
  simp [waitCycle, h0, h]

theorem waitCycle_held {s : State} {t : Delay} (h0 : s.timer ≠ 0) : waitCycle t true s = s := by
  simp [waitCycle, h0]

theorem waitCycle_last {s : State} {t : Delay} (h1 : s.timer = 1) :
    waitCycle t false s = advance (setTimer 0 s) := by
  simp [waitCycle, h1]

theorem waitCycle_count {s : State} {t : Delay} (h0 : s.timer ≠ 0) (h1 : s.timer ≠ 1) :
    waitCycle t false s = setTimer (s.timer - 1) s := by
  simp [waitCycle, h0, h1]

/-- Whatever a cycle of a wait does, it writes the timer, the position and the trace only. -/
theorem waitCycle_frame (t : Delay) (hold : Bool) (s : State) :
    ∃ n k tr, waitCycle t hold s = { s with timer := n, upc := k, trace := tr } ∧
      (k = s.upc ∨ k = s.upc + 1 ∧ n = 0) ∧
      (n = 0 ∨ n = s.timer ∨ n = s.timer - 1 ∨ n = firstLoad hold (timerLoad s.cfg t)) ∧
      (k = s.upc → n ≠ 0) := by
  by_cases h0 : s.timer = 0
  · by_cases hl : firstLoad hold (timerLoad s.cfg t) = 0
    · exact ⟨0, s.upc + 1, s.trace ++ [⟨.wait t, s.now⟩],
        by rw [waitCycle_first_only h0 hl, ← h0]; rfl, by simp⟩
    · exact ⟨firstLoad hold (timerLoad s.cfg t), s.upc, s.trace ++ [⟨.wait t, s.now⟩],
        by rw [waitCycle_first_more h0 hl]; rfl, by simp [hl]⟩
  · cases hold with
    | true => exact ⟨s.timer, s.upc, s.trace, by rw [waitCycle_held h0], by simp [h0]⟩
    | false =>
      by_cases h1 : s.timer = 1
      · exact ⟨0, s.upc + 1, s.trace, by rw [waitCycle_last h1]; rfl, by simp⟩
      · exact ⟨s.timer - 1, s.upc, s.trace, by rw [waitCycle_count h0 h1]; rfl, by simp; omega⟩

/-- What a wait loads fits the timer's register. -/
theorem firstLoad_lt {c : Config} (h : buildable c = true) (hold : Bool) (t : Delay) :
    firstLoad hold (timerLoad c t) < 2 ^ c.timerW := by
  have h1 := one_lt_timerRange h
  have h2 : timerLoad c t < 2 ^ c.timerW := Nat.mod_lt _ (by omega)
  unfold firstLoad
  split <;> omega

/-! Failed drives: each ends in the fault PIN_DRIVE, and only the driven pin may have moved. -/

theorem failRS_eq (s : State) : ∃ b, failRS s = raiseFault .pinDrive (useFree (driveRS b s)) := ⟨_, rfl⟩

theorem failD_eq (s : State) : ∃ v, failD s = raiseFault .pinDrive (useFree (driveD v s)) := ⟨_, rfl⟩

theorem failE_eq (s : State) : ∃ b tr,
    failE s = raiseFault .pinDrive (useFree (driveE b { s with transfers := tr })) ∧
    (tr = s.transfers ∨ s.eQ = true ∧ tr = s.transfers ++ [⟨s.rsQ, s.dQ⟩]) := by
  by_cases h : s.eQ && Config.failedLatch s.freeIdx
  · refine ⟨Config.failedLevel s.freeIdx, s.transfers ++ [⟨s.rsQ, s.dQ⟩], ?_, .inr ⟨by simp_all, rfl⟩⟩
    simp [failE, failedLatch, h, recordTransfer]
  · refine ⟨Config.failedLevel s.freeIdx, s.transfers, ?_, .inl rfl⟩
    simp [failE, failedLatch, h]

theorem onDataLines_idem (m : BusMode) (v : Byte) : onDataLines m (onDataLines m v) = onDataLines m v := by
  cases m <;> simp [onDataLines, BitVec.and_assoc]

end Sys2Proof.Machine
end

