-- ==== Sys2Proof/Laws/Command.lean ====
section
/-! SUPPORT. Once and for all what a host command can do at an idle engine: `exec_command_shape`. -/

namespace Sys2Proof.Machine

@[simp] theorem ignoredA_argWord (a b : Byte) : ignoredA (argWord a b) = a := by
  ext i hi
  simp [ignoredA, argWord]
  all_goals grind

@[simp] theorem ignoredB_argWord (a b : Byte) : ignoredB (argWord a b) = b := by
  ext i hi
  simp [ignoredB, argWord]
  all_goals grind

/-- Every command answers a next state. -/
theorem exec_command_next (w : CmdWord) (s : State) : ∃ t, exec (decodeCommand w) s = .next t := by
  unfold decodeCommand
  simp only []
  repeat' split
  all_goals exact ⟨_, rfl⟩

/-- A command that meets a busy or a faulted engine does nothing. -/
theorem exec_command_of_not_idle (w : CmdWord) {s : State} (h : s.busy = true ∨ s.fault = true) :
    exec (decodeCommand w) s = .next s := by
  unfold decodeCommand
  simp only []
  repeat' split
  all_goals simp only [exec, execReserved0, execReserved8F, execLcdBegin, execClear, execSetCursor, execPrintChar,
    execPrintEnd, execGetColumns, execGetRows, acceptCommand_of_not_idle h]

/-- The state in which a command with these fields has been latched. -/
abbrev latched (w : CmdWord) (s : State) : State := latchCommand (opField w) (aField w) (bField w) s

/-- R244: every way the acceptance of a command can end. -/
inductive AcceptShape (w : CmdWord) (s : State) : State → Prop
  /-- R103. -/
  | illegal (h : opField w = 0x0#4 ∨ 8 ≤ (opField w).toNat) : AcceptShape w s (raiseFault .illegalOp (latched w s))
  /-- R243. -/
  | uninit (ht : s.cfg.trapUninit = true) (hu : s.initState = .uninit) (ho : displayOp (opField w) = true) :
      AcceptShape w s (raiseFault .uninitUse (latched w s))
  /-- R202: a failed check of SET_CURSOR. -/
  | cursor (c : Cause) (hc : c = .rowRange ∨ c = .rowTable ∨ c = .addrOverflow) (ho : opField w = 0x3#4)
      (he : cursorAddr s.rows (aField w) (bField w) = .error c)
      (hn : s.cfg.trapUninit = true → s.initState ≠ .uninit) : AcceptShape w s (raiseFault c (latched w s))
  /-- R140. -/
  | begins (ho : opField w = 0x1#4) :
      AcceptShape w s (startSequence (beginSeq s.cfg.busMode (bField w))
        (storeGeometry (aField w) (bField w) (latched w s)))
  /-- Every other command that passes its checks starts its expansion. -/
  | starts (l : List MicroOp) (ho : opField w ≠ 0x1#4)
      (hl : expansionOf s.cfg.busMode s.rows (opField w) (aField w) (bField w) = some l)
      (hn : displayOp (opField w) = true → s.cfg.trapUninit = true → s.initState ≠ .uninit) :
      AcceptShape w s (startSequence l (latched w s))

theorem cursorAddr_error {rows column row : Byte} {c : Cause} (h : cursorAddr rows column row = .error c) :
    c = .rowRange ∨ c = .rowTable ∨ c = .addrOverflow := by
  rw [cursorAddr_eq] at h
  grind

theorem reservedHigh_of_ne (op : Nibble) (h0 : ¬ op = 0x0#4) (h1 : ¬ op = 0x1#4) (h2 : ¬ op = 0x2#4)
    (h3 : ¬ op = 0x3#4) (h4 : ¬ op = 0x4#4) (h5 : ¬ op = 0x5#4) (h6 : ¬ op = 0x6#4) (h7 : ¬ op = 0x7#4) :
    8 ≤ op.toNat := by bv_omega

/-- The inversion of a command at an idle engine. -/
theorem exec_command_shape (w : CmdWord) {s : State} (hb : s.busy = false) (hf : s.fault = false) :
    ∃ t, exec (decodeCommand w) s = .next t ∧ AcceptShape w s t := by
  obtain ⟨op, a, b, rfl⟩ : ∃ op a b, w = commandWord op a b := ⟨_, _, _, (commandWord_fields w).symm⟩
  have checked : ∀ body : State → State, displayOp op = true →
      ((s.cfg.trapUninit = true → s.initState ≠ .uninit) →
        AcceptShape (commandWord op a b) s (body (latchCommand op a b s))) →
      AcceptShape (commandWord op a b) s (checkUninit body (latchCommand op a b s)) := by
    intro body ho hbody
    by_cases h : uninitTrap (latchCommand op a b s) = true
    · obtain ⟨ht, hu, -⟩ := (uninitTrap_iff _).1 h
      rw [checkUninit_of_trap h]
      simpa [latched] using AcceptShape.uninit (w := commandWord op a b) (s := s) ht hu (by simpa using ho)
    · simp only [checkUninit, h, Bool.false_eq_true, if_false]
      refine hbody fun ht hu => h ((uninitTrap_iff _).2 ⟨ht, hu, ho⟩)
  have starts : ∀ l, op ≠ 0x1#4 → expansionOf s.cfg.busMode s.rows op a b = some l →
      (displayOp op = true → s.cfg.trapUninit = true → s.initState ≠ .uninit) →
      AcceptShape (commandWord op a b) s (startSequence l (latchCommand op a b s)) := by
    intro l h1 h2 h3
    simpa [latched] using
      AcceptShape.starts (w := commandWord op a b) (s := s) l (by simpa using h1) (by simpa using h2) (by simpa using h3)
  have illegal : op = 0x0#4 ∨ 8 ≤ op.toNat →
      AcceptShape (commandWord op a b) s (raiseFault .illegalOp (latchCommand op a b s)) := by
    intro h
    simpa [latched] using AcceptShape.illegal (w := commandWord op a b) (s := s) (by simpa using h)
  unfold decodeCommand
  simp only [opField_commandWord, aField_commandWord, bField_commandWord, abField_commandWord]
  split
  · next h => exact ⟨_, rfl, by simpa [acceptCommand_of_idle hb hf, h] using illegal (.inl h)⟩
  split
  · next h =>
    subst h
    refine ⟨_, rfl, ?_⟩
    rw [acceptCommand_of_idle hb hf]
    simpa [latched] using AcceptShape.begins (w := commandWord 0x1#4 a b) (s := s) (by simp)
  split
  · next h =>
    subst h
    refine ⟨_, rfl, ?_⟩
    simp only [acceptCommand_of_idle hb hf, ignoredA_argWord, ignoredB_argWord]
    exact checked _ rfl fun hn => starts _ (by decide) (by simp [expansionOf]) fun _ => hn
  split
  · next h =>
    subst h
    refine ⟨_, rfl, ?_⟩
    rw [acceptCommand_of_idle hb hf]
    refine checked _ rfl fun hn => ?_
    unfold startSetCursor
    cases hc : cursorAddr s.rows a b with
    | error c =>
      simp only [latchCommand_rows, hc]
      simpa [latched] using AcceptShape.cursor (w := commandWord 0x3#4 a b) (s := s) c (cursorAddr_error hc)
        (by simp) (by simpa using hc) hn
    | ok addr =>
      simp only [latchCommand_rows, hc]
      exact starts _ (by decide) (by simp [expansionOf, hc]) fun _ => hn
  split
  · next h =>
    subst h
    refine ⟨_, rfl, ?_⟩
    rw [acceptCommand_of_idle hb hf]
    exact checked _ rfl fun hn => starts _ (by decide) (by simp [expansionOf]) fun _ => hn
  split
  · next h =>
    subst h
    refine ⟨_, rfl, ?_⟩
    simp only [acceptCommand_of_idle hb hf, ignoredA_argWord, ignoredB_argWord]
    exact checked _ rfl fun hn => starts _ (by decide) (by simp [expansionOf]) fun _ => hn
  split
  · next h =>
    subst h
    refine ⟨_, rfl, ?_⟩
    simp only [acceptCommand_of_idle hb hf, ignoredA_argWord, ignoredB_argWord]
    exact starts _ (by decide) (by simp [expansionOf]) (by simp [displayOp])
  split
  · next h =>
    subst h
    refine ⟨_, rfl, ?_⟩
    simp only [acceptCommand_of_idle hb hf, ignoredA_argWord, ignoredB_argWord]
    exact starts _ (by decide) (by simp [expansionOf]) (by simp [displayOp])
  · refine ⟨_, rfl, ?_⟩
    simp only [acceptCommand_of_idle hb hf, ignoredA_argWord, ignoredB_argWord]
    exact illegal (.inr (reservedHigh_of_ne op ‹_› ‹_› ‹_› ‹_› ‹_› ‹_› ‹_› ‹_›))

end Sys2Proof.Machine
end

