-- ==== Sys2Proof/Laws/Ddram.lean ====
section
/-! SUPPORT. The laws of the display memory: a read after a write, and the canonical form, which every operation keeps. -/

namespace Sys2Proof.Machine

@[simp] theorem ddramRead_nil (addr : Nat) : ddramRead [] addr = ddramBlank := rfl

theorem ddramRead_cons (a : Nat) (v : Byte) (rest : List Host.Cell) (addr : Nat) :
    ddramRead ((a, v) :: rest) addr = if a = addr then v else ddramRead rest addr := rfl

theorem ddramWfFrom_cons (low a : Nat) (v : Byte) (rest : List Host.Cell) :
    ddramWfFrom low ((a, v) :: rest) = true ↔
      low ≤ a ∧ a < ddramSize ∧ v ≠ ddramBlank ∧ ddramWfFrom (a + 1) rest = true := by
  simp [ddramWfFrom, and_assoc]

/-- The canonical form from an address is one from any lower address. -/
theorem ddramWfFrom_mono {low low' : Nat} (h : low' ≤ low) :
    ∀ m : List Host.Cell, ddramWfFrom low m = true → ddramWfFrom low' m = true
  | [], _ => rfl
  | (a, v) :: rest, hm => by
    rw [ddramWfFrom_cons] at hm ⊢
    exact ⟨h.trans hm.1, hm.2⟩

/-- An address below all that are listed reads the blank. -/
theorem ddramRead_below {low addr : Nat} (h : addr < low) :
    ∀ m : List Host.Cell, ddramWfFrom low m = true → ddramRead m addr = ddramBlank
  | [], _ => rfl
  | (a, v) :: rest, hm => by
    rw [ddramWfFrom_cons] at hm
    rw [ddramRead_cons, if_neg (by omega)]
    exact ddramRead_below (by omega) rest hm.2.2.2

theorem ddramRead_ddramCons (addr : Nat) (v : Byte) (m : List Host.Cell) (b : Nat)
    (h : ddramRead m addr = ddramBlank) :
    ddramRead (ddramCons addr v m) b = if b = addr then v else ddramRead m b := by
  unfold ddramCons
  split
  · split <;> simp_all
  · rw [ddramRead_cons]
    grind

/-- A read after a write: the byte written at its address, and the old byte at every other. -/
theorem ddramRead_ddramWrite {low : Nat} (addr : Nat) (v : Byte) (b : Nat) :
    ∀ m : List Host.Cell, ddramWfFrom low m = true →
      ddramRead (ddramWrite m addr v) b = if b = addr then v else ddramRead m b
  | [], _ => ddramRead_ddramCons addr v [] b rfl
  | (a, w) :: rest, hm => by
    have hr := (ddramWfFrom_cons low a w rest).1 hm
    unfold ddramWrite
    split
    · next h =>
      exact ddramRead_ddramCons addr v _ b
        (ddramRead_below h _ ((ddramWfFrom_cons a a w rest).2 ⟨le_refl a, hr.2⟩))
    · split
      · next h =>
        subst h
        rw [ddramRead_ddramCons _ _ _ _ (ddramRead_below (Nat.lt_succ_self _) rest hr.2.2.2), ddramRead_cons]
        grind
      · rw [ddramRead_cons, ddramRead_cons, ddramRead_ddramWrite addr v b rest hr.2.2.2]
        grind

theorem ddramCons_wf {low addr : Nat} (v : Byte) (m : List Host.Cell) (hl : low ≤ addr) (ha : addr < ddramSize)
    (hm : ddramWfFrom (addr + 1) m = true) : ddramWfFrom low (ddramCons addr v m) = true := by
  unfold ddramCons
  split
  · exact ddramWfFrom_mono (by omega) m hm
  · next h => exact (ddramWfFrom_cons _ _ _ _).2 ⟨hl, ha, h, hm⟩

/-- A write keeps the canonical form. -/
theorem ddramWrite_wfFrom (addr : Nat) (v : Byte) (ha : addr < ddramSize) :
    ∀ (m : List Host.Cell) (low : Nat), low ≤ addr → ddramWfFrom low m = true →
      ddramWfFrom low (ddramWrite m addr v) = true
  | [], _, hl, _ => ddramCons_wf v [] hl ha rfl
  | (a, w) :: rest, low, hl, hm => by
    have hr := (ddramWfFrom_cons low a w rest).1 hm
    unfold ddramWrite
    split
    · next h => exact ddramCons_wf v _ hl ha ((ddramWfFrom_cons _ _ _ _).2 ⟨h, hr.2⟩)
    · split
      · next h => subst h; exact ddramCons_wf v _ hl ha hr.2.2.2
      · exact (ddramWfFrom_cons _ _ _ _).2
          ⟨hr.1, hr.2.1, hr.2.2.1, ddramWrite_wfFrom addr v ha rest (a + 1) (by omega) hr.2.2.2⟩

theorem ddramWrite_wf {m : List Host.Cell} (addr : Nat) (v : Byte) (ha : addr < ddramSize)
    (hm : ddramWf m = true) : ddramWf (ddramWrite m addr v) = true :=
  ddramWrite_wfFrom addr v ha m 0 (Nat.zero_le _) hm

/-- Overwriting the whole memory, or a first part of it, keeps the canonical form. -/
theorem ddramFill_wf (f : Nat → Byte) {m : List Host.Cell} (hm : ddramWf m = true) :
    ∀ n, n ≤ ddramSize → ddramWf (ddramFill f n m) = true
  | 0, _ => hm
  | n + 1, h => ddramWrite_wf n (f n) (by omega) (ddramFill_wf f hm n (by omega))

/-- Equal memories are equal data: in canonical form, what every address reads as determines the list. -/
theorem ddram_ext {low : Nat} : ∀ {m m' : List Host.Cell}, ddramWfFrom low m = true → ddramWfFrom low m' = true →
    (∀ addr, ddramRead m addr = ddramRead m' addr) → m = m'
  | [], [], _, _, _ => rfl
  | [], (a, v) :: rest, _, h', hr => by
    have := hr a
    rw [ddramRead_cons, if_pos rfl, ddramRead_nil] at this
    exact absurd this.symm ((ddramWfFrom_cons _ _ _ _).1 h').2.2.1
  | (a, v) :: rest, [], h, _, hr => by
    have := hr a
    rw [ddramRead_cons, if_pos rfl, ddramRead_nil] at this
    exact absurd this ((ddramWfFrom_cons _ _ _ _).1 h).2.2.1
  | (a, v) :: rest, (a', v') :: rest', h, h', hr => by
    have g := (ddramWfFrom_cons _ _ _ _).1 h
    have g' := (ddramWfFrom_cons _ _ _ _).1 h'
    have haa : a = a' := by
      rcases Nat.lt_trichotomy a a' with hlt | heq | hgt
      · have := hr a
        rw [ddramRead_below hlt _ ((ddramWfFrom_cons a' a' v' rest').2 ⟨le_refl _, g'.2⟩), ddramRead_cons,
          if_pos rfl] at this
        exact absurd this g.2.2.1
      · exact heq
      · have := hr a'
        rw [ddramRead_below hgt _ ((ddramWfFrom_cons a a v rest).2 ⟨le_refl _, g.2⟩), ddramRead_cons,
          if_pos rfl] at this
        exact absurd this.symm g'.2.2.1
    subst haa
    have hv : v = v' := by
      have := hr a
      simpa [ddramRead_cons] using this
    subst hv
    have : rest = rest' := ddram_ext g.2.2.2 g'.2.2.2 fun addr => by
      have := hr addr
      by_cases hc : a = addr
      · subst hc
        rw [ddramRead_below (Nat.lt_succ_self _) _ g.2.2.2, ddramRead_below (Nat.lt_succ_self _) _ g'.2.2.2]
      · simpa [ddramRead_cons, hc] using this
    rw [this]

end Sys2Proof.Machine
end

