-- ==== Sys2Proof/Laws/Lcd.lean ====
section
/-! SUPPORT. What the module's operations can do: they change the module only, and keep its memory in canonical form. -/

namespace Sys2Proof.Machine

/-- The module's memory is canonical and its count of wake-up values is at most 3. -/
def LcdGood (l : Lcd) : Prop := ddramWf l.ddram = true ∧ l.wakes ≤ 3

@[simp] theorem withLcd_withLcd (l l' : Lcd) (s : State) : withLcd l (withLcd l' s) = withLcd l s := rfl

/-- What any state of the module is depends on the counter of free values only. -/
theorem anyLcd_congr {l l' : Lcd} (h : l.freeIdx = l'.freeIdx) (w : Nat) : anyLcd w l = anyLcd w l' := by
  unfold anyLcd
  rw [h]

theorem anyLcd_good {w : Nat} (hw : w ≤ 3) (l : Lcd) : LcdGood (anyLcd w l) := by
  have h := ddramFill_wf (Config.lcdByte l.freeIdx) (m := []) (by simp [ddramWf, ddramWfFrom]) ddramSize
    (le_refl ddramSize)
  refine And.intro ?_ hw
  simp only [anyLcd]
  exact h

/-- From BEGIN on the module takes transfers as `classify` says. -/
theorem reading_of_begun {s : State} (h : beforeBegin s = false) {t : Transfer} :
    reading t s = classify s.cfg.busMode t s.lcd := by
  simp [reading, h]

/-- The engine's part of a falling E does not change how the module takes the transfer. -/
theorem reading_fallE (t : Transfer) (m : MicroOp) (s : State) :
    reading t (fallE (recordMicro m (beginCycle s))) = reading t s := rfl

/-- While BEGIN runs, and in READY, the module's reaction is given. -/
theorem beforeBegin_eq_false {s : State} (h : s.curOp = 0x1#4 ∨ s.initState = .ready) : beforeBegin s = false := by
  rcases h with h | h <;> simp [beforeBegin, h]

/-- Before BEGIN no transfer has a reading (R213). -/
theorem reading_of_before {s : State} (h : beforeBegin s = true) {t : Transfer} : reading t s = .garbled := by
  simp [reading, h]

theorem nextWakes_le (m : BusMode) (t : Transfer) (w : Nat) : nextWakes m t w ≤ 3 := by
  unfold nextWakes
  split <;> omega

/-- The words that the module executes. -/
def Instr.isBusWord : Instr → Bool
  | .lcdBegin _ _ | .clear _ | .setCursor _ _ | .printChar _ _ | .printEnd _ | .getColumns _ | .getRows _
  | .reserved0 _ | .reserved8F _ _ => false
  | .initNibble3 | .switchNibble2 | .initByte30 | .fset4Bit1Line | .fset4Bit2Line | .fset8Bit1Line | .fset8Bit2Line
  | .displayControl | .clearDisplay | .entryMode | .setDdramAddr _ | .writeData _ => true

theorem decodeNibble_isBusWord {w : NibbleWord} {i : Instr} (h : decodeNibble w = .ok i) :
    Instr.isBusWord i = true := by
  unfold decodeNibble at h
  grind [Instr.isBusWord]

theorem decodeByte_isBusWord {p : Bool} {w : ByteWord} {i : Instr} (h : decodeByte p w = .ok i) :
    Instr.isBusWord i = true := by
  unfold decodeByte at h
  grind [Instr.isBusWord]

/-- A bus word changes the module only, and leaves it good. -/
theorem exec_busWord {i : Instr} (hi : Instr.isBusWord i = true) (s : State) :
    ∃ l, exec i s = .next (withLcd l s) ∧ (LcdGood s.lcd → LcdGood l) := by
  cases i with
  | lcdBegin => simp [Instr.isBusWord] at hi
  | clear => simp [Instr.isBusWord] at hi
  | setCursor => simp [Instr.isBusWord] at hi
  | printChar => simp [Instr.isBusWord] at hi
  | printEnd => simp [Instr.isBusWord] at hi
  | getColumns => simp [Instr.isBusWord] at hi
  | getRows => simp [Instr.isBusWord] at hi
  | reserved0 => simp [Instr.isBusWord] at hi
  | reserved8F => simp [Instr.isBusWord] at hi
  | initNibble3 => exact ⟨_, rfl, id⟩
  | switchNibble2 => exact ⟨_, rfl, id⟩
  | initByte30 => exact ⟨_, rfl, id⟩
  | fset4Bit1Line => exact ⟨_, rfl, id⟩
  | fset4Bit2Line => exact ⟨_, rfl, id⟩
  | fset8Bit1Line => exact ⟨_, rfl, id⟩
  | fset8Bit2Line => exact ⟨_, rfl, id⟩
  | displayControl => exact ⟨_, rfl, id⟩
  | clearDisplay => exact ⟨_, rfl, fun h => ⟨rfl, h.2⟩⟩
  | entryMode => exact ⟨_, rfl, id⟩
  | setDdramAddr a =>
    by_cases h : lcdValidAddr s.lcd.twoLine a = true
    · exact ⟨{ s.lcd with ac := a }, by simp [exec, execSetDdramAddr, lcdSetAddr, h], id⟩
    · exact ⟨anyLcd s.lcd.wakes s.lcd, by simp [exec, execSetDdramAddr, lcdSetAddr, h, garbleLcd],
        fun hg => anyLcd_good hg.2 _⟩
  | writeData ch => exact ⟨_, rfl, fun h => ⟨ddramWrite_wf _ _ s.lcd.ac.isLt h.1, h.2⟩⟩

end Sys2Proof.Machine
end

