-- ==== Sys2Proof/Laws/Cycle.lean ====
section
/-! SUPPORT. Once and for all what a step can do: `step_shape`. Every fact about all steps is a case split over it. -/

namespace Sys2Proof.Machine

/-- How the module takes a transfer: whatever it is, the state changes in the module only. -/
theorem receive_shape (t : Transfer) (s : State) :
    ∃ l, (receive t s = .goes (withLcd l s) ∨
        ∃ i l', receive t s = .runs i (withLcd l' s) ∧ exec i (withLcd l' s) = .next (withLcd l s)) ∧
      (LcdGood s.lcd → LcdGood l) := by
  have hw := nextWakes_le s.cfg.busMode t s.lcd.wakes
  have garbled : LcdGood (garbleLcd (setWakes (nextWakes s.cfg.busMode t s.lcd.wakes) s)).lcd :=
    anyLcd_good hw _
  cases hc : reading t s with
  | half v =>
    exact ⟨(storeHalf v (setWakes (nextWakes s.cfg.busMode t s.lcd.wakes) s)).lcd,
      .inl (by simp only [receive, hc]; rfl), fun h => ⟨h.1, hw⟩⟩
  | garbled =>
    exact ⟨(garbleLcd (setWakes (nextWakes s.cfg.busMode t s.lcd.wakes) s)).lcd,
      .inl (by simp only [receive, hc]; rfl), fun _ => garbled⟩
  | word p c =>
    cases hd : decode p c with
    | error e =>
      exact ⟨(garbleLcd (setWakes (nextWakes s.cfg.busMode t s.lcd.wakes) s)).lcd,
        .inl (by simp only [receive, hc, hd]; rfl), fun _ => garbled⟩
    | ok i =>
      have hb : Instr.isBusWord i = true := by
        cases c with
        | host w =>
          exfalso
          revert hc
          unfold reading classify loneWord
          grind
        | nibble w => exact decodeNibble_isBusWord hd
        | byte w => exact decodeByte_isBusWord hd
      obtain ⟨l, hl, hg⟩ := exec_busWord hb (takeWord (nextWakes s.cfg.busMode t s.lcd.wakes) s)
      exact ⟨l, .inr ⟨i, _, by simp only [receive, hc, hd]; rfl, hl⟩, fun h => hg ⟨h.1, hw⟩⟩

/-- Every way a step can reach a next state. -/
inductive StepShape (s : State) : State → Prop
  /-- R280: a reset edge. -/
  | reset (hr : (currentDraw s).rstN = false) : StepShape s (resetEdge (beginCycle s))
  /-- R34: completion. -/
  | completes (hr : (currentDraw s).rstN = true) (hb : s.busy = true) (hu : s.upc = s.seq.length) :
      StepShape s (completeCommand (beginCycle s))
  /-- R173: a cycle of a wait. -/
  | waits (w : Delay) (hr : (currentDraw s).rstN = true) (hb : s.busy = true) (hm : s.seq[s.upc]? = some (.wait w)) :
      StepShape s (waitCycle w (currentDraw s).hold (beginCycle s))
  /-- R174 at a drive of RS. -/
  | failsRS (b : Bool) (hr : (currentDraw s).rstN = true) (hb : s.busy = true)
      (hm : s.seq[s.upc]? = some (.drvRS b)) (hp : (currentDraw s).pinErr = true) :
      StepShape s (scrambleLcd (failRS (recordMicro (.drvRS b) (beginCycle s))))
  /-- R174 at a drive of the data lines. -/
  | failsD (v : Byte) (hr : (currentDraw s).rstN = true) (hb : s.busy = true)
      (hm : s.seq[s.upc]? = some (.drvD v)) (hp : (currentDraw s).pinErr = true) :
      StepShape s (scrambleLcd (failD (recordMicro (.drvD v) (beginCycle s))))
  /-- R174 at a drive of E. -/
  | failsE (b : Bool) (hr : (currentDraw s).rstN = true) (hb : s.busy = true)
      (hm : s.seq[s.upc]? = some (.drvE b)) (hp : (currentDraw s).pinErr = true) :
      StepShape s (scrambleLcd (failE (recordMicro (.drvE b) (beginCycle s))))
  /-- R170. -/
  | drivesRS (b : Bool) (hr : (currentDraw s).rstN = true) (hb : s.busy = true)
      (hm : s.seq[s.upc]? = some (.drvRS b)) (hp : (currentDraw s).pinErr = false) :
      StepShape s (advance (driveRS b (recordMicro (.drvRS b) (beginCycle s))))
  /-- R172. -/
  | drivesD (v : Byte) (hr : (currentDraw s).rstN = true) (hb : s.busy = true)
      (hm : s.seq[s.upc]? = some (.drvD v)) (hp : (currentDraw s).pinErr = false) :
      StepShape s (advance (driveD v (recordMicro (.drvD v) (beginCycle s))))
  /-- R171 with no falling edge. -/
  | drivesE (b : Bool) (hr : (currentDraw s).rstN = true) (hb : s.busy = true)
      (hm : s.seq[s.upc]? = some (.drvE b)) (hp : (currentDraw s).pinErr = false) (he : fallingEdge b s = false) :
      StepShape s (advance (driveE b (recordMicro (.drvE b) (beginCycle s))))
  /-- R171 with a falling edge: the transfer is recorded, and the module takes it. -/
  | falls (l : Lcd) (hr : (currentDraw s).rstN = true) (hb : s.busy = true)
      (hm : s.seq[s.upc]? = some (.drvE false)) (hp : (currentDraw s).pinErr = false) (he : s.eQ = true)
      (hl : LcdGood s.lcd → LcdGood l) :
      StepShape s (withLcd l (fallE (recordMicro (.drvE false) (beginCycle s))))
  /-- Nothing to do. -/
  | idles (hr : (currentDraw s).rstN = true) (hb : s.busy = false) (hn : s.fault = true ∨ presented s = none) :
      StepShape s (beginCycle s)
  /-- R45: a command is accepted. -/
  | accepts (w : CmdWord) (t : State) (hr : (currentDraw s).rstN = true) (hb : s.busy = false)
      (hf : s.fault = false) (hw : presented s = some w)
      (ht : exec (decodeCommand w) (takeCommand (beginCycle s)) = .next t) : StepShape s t

theorem fallingEdge_eq_true {b : Bool} {s : State} (h : fallingEdge b s = true) : s.eQ = true ∧ b = false := by
  simpa [fallingEdge] using h

/-- The inversion of the step. -/
theorem step_shape {s t : State} (h : step s = .next t) : buildable s.cfg = true ∧ StepShape s t := by
  unfold step at h
  by_cases hc : buildable s.cfg = true
  swap
  · simp [cycle, hc] at h
  refine ⟨hc, ?_⟩
  cases hr : (currentDraw s).rstN with
  | false =>
    simp only [cycle, hc, hr, if_true, Bool.false_eq_true, if_false] at h
    cases h
    exact .reset hr
  | true =>
    cases hb : s.busy with
    | false =>
      simp only [cycle, hc, hr, hb, if_true, Bool.false_eq_true, if_false] at h
      cases hw : presented s with
      | none =>
        simp only [hw, idleCycle] at h
        cases h
        exact .idles hr hb (.inr hw)
      | some w =>
        cases hf : s.fault with
        | true =>
          simp only [hw, idleCycle, idle, beginCycle_busy, beginCycle_fault, hb, hf, Bool.not_true, Bool.and_false,
            Bool.false_eq_true, if_false] at h
          cases h
          exact .idles hr hb (.inl hf)
        | false =>
          simp only [hw, idleCycle, idle, beginCycle_busy, beginCycle_fault, hb, hf, Bool.not_false, Bool.and_self,
            if_true] at h
          exact .accepts w t hr hb hf hw h
    | true =>
      simp only [cycle, hc, hr, hb, if_true, microCycle, beginCycle_seq, beginCycle_upc] at h
      cases hm : s.seq[s.upc]? with
      | none =>
        simp only [hm] at h
        by_cases hu : s.upc = s.seq.length
        · simp only [hu, if_true] at h
          cases h
          exact .completes hr hb hu
        · simp [hu] at h
      | some m =>
        simp only [hm] at h
        cases m with
        | wait w =>
          cases h
          exact .waits w hr hb hm
        | drvRS b =>
          cases hp : (currentDraw s).pinErr with
          | true =>
            simp only [runMicro, hp, if_true] at h
            cases h
            exact .failsRS b hr hb hm hp
          | false =>
            simp only [runMicro, hp, Bool.false_eq_true, if_false] at h
            cases h
            exact .drivesRS b hr hb hm hp
        | drvD v =>
          cases hp : (currentDraw s).pinErr with
          | true =>
            simp only [runMicro, hp, if_true] at h
            cases h
            exact .failsD v hr hb hm hp
          | false =>
            simp only [runMicro, hp, Bool.false_eq_true, if_false] at h
            cases h
            exact .drivesD v hr hb hm hp
        | drvE b =>
          cases hp : (currentDraw s).pinErr with
          | true =>
            simp only [runMicro, hp, if_true] at h
            cases h
            exact .failsE b hr hb hm hp
          | false =>
            cases he : fallingEdge b s with
            | false =>
              have he' : fallingEdge b (beginCycle s) = false := he
              simp only [runMicro, hp, he', Bool.false_eq_true, if_false] at h
              cases h
              exact .drivesE b hr hb hm hp he
            | true =>
              have he' : fallingEdge b (beginCycle s) = true := he
              obtain ⟨heq, rfl⟩ := fallingEdge_eq_true he
              simp only [runMicro, hp, he', Bool.false_eq_true, if_false, if_true] at h
              cases hx : (currentDraw s).lcdMisses with
              | true =>
                simp only [hx, if_true] at h
                cases h
                exact .falls s.lcd hr hb hm hp heq id
              | false =>
                simp only [hx, Bool.false_eq_true, if_false, beginCycle_rsQ, beginCycle_dQ] at h
                obtain ⟨l, hl | ⟨i, l', hi, hn⟩, hg⟩ :=
                  receive_shape ⟨s.rsQ, s.dQ⟩ (fallE (recordMicro (.drvE false) (beginCycle s)))
                · simp only [hl] at h
                  cases h
                  exact .falls l hr hb hm hp heq hg
                · simp only [hi, hn] at h
                  cases h
                  exact .falls l hr hb hm hp heq hg

/-- Completion, forwards. -/
theorem step_completes {s : State} (hc : buildable s.cfg = true) (hr : (currentDraw s).rstN = true)
    (hb : s.busy = true) (hu : s.upc = s.seq.length) : step s = .next (completeCommand (beginCycle s)) := by
  simp [step, cycle, hc, hr, hb, microCycle, hu]

/-- A cycle of a micro-op, forwards. -/
theorem step_micro {s : State} {m : MicroOp} (hc : buildable s.cfg = true) (hr : (currentDraw s).rstN = true)
    (hb : s.busy = true) (hm : s.seq[s.upc]? = some m) :
    step s = match runMicro (currentDraw s) m (beginCycle s) with
      | .goes s' => .next s'
      | .runs i s' => exec i s'
      | .stops f => .fault f
      | .refuses r => .refused r := by
  have h : cycle s = runMicro (currentDraw s) m (beginCycle s) := by simp [cycle, hc, hr, hb, microCycle, hm]
  rw [← h]
  rfl

/-- A transfer without a reading, forwards. -/
theorem step_falls_unread {s : State} (hc : buildable s.cfg = true) (hr : (currentDraw s).rstN = true)
    (hb : s.busy = true) (hm : s.seq[s.upc]? = some (.drvE false)) (hp : (currentDraw s).pinErr = false)
    (hx : (currentDraw s).lcdMisses = false) (he : s.eQ = true) (hg : reading ⟨s.rsQ, s.dQ⟩ s = .garbled) :
    step s = .next (withLcd (anyLcd (nextWakes s.cfg.busMode ⟨s.rsQ, s.dQ⟩ s.lcd.wakes) s.lcd)
      (fallE (recordMicro (.drvE false) (beginCycle s)))) := by
  have hg' : reading ⟨s.rsQ, s.dQ⟩ (fallE (recordMicro (.drvE false) (beginCycle s))) = .garbled := hg
  rw [step_micro hc hr hb hm]
  simp [runMicro, hp, hx, fallingEdge, he, receive, hg']
  rfl

/-- The acceptance of a command, forwards. -/
theorem step_accepts {s : State} {w : CmdWord} (hc : buildable s.cfg = true) (hr : (currentDraw s).rstN = true)
    (hb : s.busy = false) (hf : s.fault = false) (hw : presented s = some w) :
    step s = exec (decodeCommand w) (takeCommand (beginCycle s)) := by
  simp [step, cycle, hc, hr, hb, hw, idleCycle, idle, hf]

end Sys2Proof.Machine
end

