-- ==== Sys2Proof/Laws/PerInstr.lean ====
section
/-! SUPPORT. The family `TableMatch`: the word of every well-formed instruction has the width of its row of
spec/opcode_table.json, and under the row's mask it is the row's match. -/

namespace Sys2Proof.Laws.TableMatch

def Statement (i : Instr) : Prop :=
  i.wellFormed = true →
    (encode i).width = i.tableRow.width ∧ (encode i).bits &&& i.tableRow.mask = i.tableRow.pattern

/-- The OP field of a command word, by the table's mask. -/
theorem commandWord16_op (op : Nibble) (ab : BitVec 16) :
    (commandWord16 op ab).toNat &&& 0xF0000 = op.toNat * 0x10000 := by
  have h : commandWord16 op ab &&& 0xF0000#20 = op.setWidth 20 <<< 16 := by
    ext i hi
    simp [commandWord16]
    interval_cases i <;> simp
  have hop := op.isLt
  calc (commandWord16 op ab).toNat &&& 0xF0000
      = (commandWord16 op ab &&& 0xF0000#20).toNat := rfl
    _ = (op.setWidth 20 <<< 16).toNat := by rw [h]
    _ = op.toNat * 0x10000 := by
      simp only [BitVec.toNat_shiftLeft, BitVec.toNat_setWidth, Nat.shiftLeft_eq]
      omega

theorem commandWord_eq (op : Nibble) (a b : Byte) : commandWord op a b = commandWord16 op (argWord a b) := by
  rw [← commandWord16_fields (commandWord op a b), opField_commandWord, abField_commandWord]

theorem commandWord_op (op : Nibble) (a b : Byte) :
    (commandWord op a b).toNat &&& 0xF0000 = op.toNat * 0x10000 := by
  rw [commandWord_eq, commandWord16_op]

theorem lcdBegin (c r : Byte) : Statement (.lcdBegin c r) := fun _ => ⟨rfl, commandWord_op 0x1#4 c r⟩
theorem clear (ab : BitVec 16) : Statement (.clear ab) := fun _ => ⟨rfl, commandWord16_op 0x2#4 ab⟩
theorem setCursor (c r : Byte) : Statement (.setCursor c r) := fun _ => ⟨rfl, commandWord_op 0x3#4 c r⟩
theorem printChar (a ch : Byte) : Statement (.printChar a ch) := fun _ => ⟨rfl, commandWord_op 0x4#4 a ch⟩
theorem printEnd (ab : BitVec 16) : Statement (.printEnd ab) := fun _ => ⟨rfl, commandWord16_op 0x5#4 ab⟩
theorem getColumns (ab : BitVec 16) : Statement (.getColumns ab) := fun _ => ⟨rfl, commandWord16_op 0x6#4 ab⟩
theorem getRows (ab : BitVec 16) : Statement (.getRows ab) := fun _ => ⟨rfl, commandWord16_op 0x7#4 ab⟩
theorem reserved0 (ab : BitVec 16) : Statement (.reserved0 ab) := fun _ => ⟨rfl, commandWord16_op 0x0#4 ab⟩

theorem reserved8F (op : Nibble) (ab : BitVec 16) : Statement (.reserved8F op ab) := by
  intro h
  refine ⟨rfl, ?_⟩
  have hop : op.getLsbD 3 = true := by
    change reservedHighOp op = true at h
    clear ab
    revert op
    decide
  have h19 : commandWord16 op ab &&& 0x80000#20 = 0x80000#20 := by
    ext i hi
    simp only [commandWord16]
    interval_cases i <;> simp_all
  exact congrArg BitVec.toNat h19

theorem initNibble3 : Statement .initNibble3 := fun _ => ⟨rfl, rfl⟩
theorem switchNibble2 : Statement .switchNibble2 := fun _ => ⟨rfl, rfl⟩
theorem initByte30 : Statement .initByte30 := fun _ => ⟨rfl, rfl⟩
theorem fset4Bit1Line : Statement .fset4Bit1Line := fun _ => ⟨rfl, rfl⟩
theorem fset4Bit2Line : Statement .fset4Bit2Line := fun _ => ⟨rfl, rfl⟩
theorem fset8Bit1Line : Statement .fset8Bit1Line := fun _ => ⟨rfl, rfl⟩
theorem fset8Bit2Line : Statement .fset8Bit2Line := fun _ => ⟨rfl, rfl⟩
theorem displayControl : Statement .displayControl := fun _ => ⟨rfl, rfl⟩
theorem clearDisplay : Statement .clearDisplay := fun _ => ⟨rfl, rfl⟩
theorem entryMode : Statement .entryMode := fun _ => ⟨rfl, rfl⟩

theorem setDdramAddr (a : DdramAddr) : Statement (.setDdramAddr a) := by
  revert a
  unfold Statement
  decide

theorem writeData (ch : Byte) : Statement (.writeData ch) := by
  revert ch
  unfold Statement
  decide

end Sys2Proof.Laws.TableMatch
end

