-- ==== Sys2Proof/Laws/Run.lean ====
section
/-! SUPPORT. Runs of several steps: how they compose, the countdown of a wait, and what a transfer makes of the module as
a function of the module alone. -/

namespace Sys2Proof.Machine

@[simp] theorem runs_zero (s : State) : runs 0 s = .next s := rfl

theorem runs_succ_of {n : Nat} {s t : State} (h : step s = .next t) : runs (n + 1) s = runs n t := by
  simp only [runs, h]

/-- A run of `n` steps, and then `m` more. -/
theorem runs_add {m : Nat} : ∀ {n : Nat} {s t : State}, runs n s = .next t → runs (n + m) s = runs m t
  | 0, s, t, h => by cases h; simp
  | n + 1, s, t, h => by
    rw [Nat.add_right_comm]
    cases hs : step s with
    | next u =>
      rw [runs_succ_of hs] at h ⊢
      exact runs_add h
    | fault r => simp [runs, hs] at h
    | refused r => simp [runs, hs] at h

/-- A run that ends has passed through a state at every moment. -/
theorem runs_split {m : Nat} : ∀ {n : Nat} {s t : State}, runs (n + m) s = .next t →
    ∃ u, runs n s = .next u ∧ runs m u = .next t
  | 0, s, t, h => ⟨s, rfl, by simpa using h⟩
  | n + 1, s, t, h => by
    rw [Nat.add_right_comm] at h
    cases hs : step s with
    | next u =>
      rw [runs_succ_of hs] at h
      obtain ⟨v, hv, ht⟩ := runs_split h
      exact ⟨v, by rw [runs_succ_of hs, hv], ht⟩
    | fault r => simp [runs, hs] at h
    | refused r => simp [runs, hs] at h

/-! Environments that neither reset nor hold. -/

/-- For `n` cycles no reset and no hold. -/
def Calm (n : Nat) (ds : List Draw) : Prop := ∀ d ∈ ds.take n, d.rstN = true ∧ d.hold = false

theorem calm_head {n : Nat} {s : State} (h : Calm (n + 1) s.draws) :
    (currentDraw s).rstN = true ∧ (currentDraw s).hold = false := by
  unfold currentDraw
  cases hd : s.draws with
  | nil => exact ⟨rfl, rfl⟩
  | cons d ds => exact h d (by simp [hd])

theorem calm_tail {n : Nat} {ds : List Draw} (h : Calm (n + 1) ds) : Calm n ds.tail := by
  cases ds with
  | nil => simp [Calm]
  | cons d ds => intro x hx; exact h x (by simp at hx ⊢; exact .inr hx)

theorem quiet_head {n : Nat} {s : State} (h : QuietFor (n + 1) s) : currentDraw s = Draw.quiet := by
  unfold currentDraw
  cases hd : s.draws with
  | nil => rfl
  | cons d ds => exact h d (by simp [hd])

theorem quiet_take {k n : Nat} {s : State} (h : QuietFor (k + n) s) : QuietFor k s := by
  intro d hmem
  apply h d
  rw [List.take_add]
  exact List.mem_append_left _ hmem

theorem quiet_drop {k n : Nat} {s u : State} (h : QuietFor (k + n) s) (hd : u.draws = s.draws.drop k) :
    QuietFor n u := by
  intro d hmem
  rw [hd] at hmem
  apply h d
  rw [List.take_add]
  exact List.mem_append_right _ hmem

/-- The countdown of a wait, from a counter that is not 0 to the end of the wait. -/
theorem runs_count : ∀ (n : Nat) (s : State) (w : Delay), buildable s.cfg = true → s.busy = true → s.timer = n + 1 →
    s.seq[s.upc]? = some (.wait w) → Calm (n + 1) s.draws →
    runs (n + 1) s = .next { s with
      now := s.now + (n + 1), draws := s.draws.drop (n + 1), rspValid := false, timer := 0, upc := s.upc + 1 }
  | n, s, w, hc, hb, ht, hm, hq => by
    obtain ⟨hr, hh⟩ := calm_head hq
    have hs : step s = .next (waitCycle w false (beginCycle s)) := by
      rw [step_micro hc hr hb hm]
      simp [runMicro, hh]
    rw [runs_succ_of hs]
    cases n with
    | zero =>
      rw [waitCycle_last (by simpa using ht)]
      simp [advance, setTimer, beginCycle]
    | succ n =>
      rw [waitCycle_count (by simp; omega) (by simp; omega)]
      rw [runs_count n (setTimer ((beginCycle s).timer - 1) (beginCycle s)) w hc hb (by simp; omega) hm (calm_tail hq)]
      simp [setTimer, beginCycle]
      omega

/-- The countdown of a wait, up to a moment before its end. -/
theorem runs_counting : ∀ (n : Nat) (s : State) (w : Delay) (k : Nat), buildable s.cfg = true → s.busy = true →
    s.timer = n + k + 1 → s.seq[s.upc]? = some (.wait w) → Calm (n + 1) s.draws →
    runs n s = .next { s with
      now := s.now + n, draws := s.draws.drop n, rspValid := if n = 0 then s.rspValid else false, timer := k + 1 } := by
  intro n
  induction n with
  | zero =>
    intro s w k hc hb ht hm hq
    simp at ht
    simp [← ht]
  | succ n ih =>
    intro s w k hc hb ht hm hq
    obtain ⟨hr, hh⟩ := calm_head hq
    have hs : step s = .next (waitCycle w false (beginCycle s)) := by
      rw [step_micro hc hr hb hm]
      simp [runMicro, hh]
    rw [runs_succ_of hs, waitCycle_count (by simp; omega) (by simp; omega)]
    rw [ih (setTimer ((beginCycle s).timer - 1) (beginCycle s)) w k hc hb (by simp; omega) hm (calm_tail hq)]
    simp [setTimer, beginCycle]
    omega

/-- A busy state after a step shows no response. -/
theorem step_busy_no_response {s t : State} (h : step s = .next t) (hb : t.busy = true) : t.rspValid = false := by
  obtain ⟨hc, hs⟩ := step_shape h
  cases hs with
  | reset hr =>
    revert hb
    unfold resetEdge
    split <;> simp [scrambleLcd]
  | accepts w t hr hb' hf hw ht =>
    obtain ⟨t', ht', hsh⟩ := exec_command_shape w (s := takeCommand (beginCycle s)) hb' hf
    rw [ht'] at ht
    cases ht
    cases hsh <;> simp at hb ⊢
  | waits w hr hb' hm =>
    obtain ⟨n, k, tr, he, hk, hn, hnz⟩ := waitCycle_frame w (currentDraw s).hold (beginCycle s)
    rw [he]
    rfl
  | completes => simp at hb
  | failsE => simp [scrambleLcd, failE] at hb
  | failsD => simp [scrambleLcd, failD] at hb
  | failsRS => simp [scrambleLcd, failRS] at hb
  | _ => rfl

/-! The module as a function of its transfers. -/

/-- What a transfer makes of the module: `receive`, with the rest of the state left out, from BEGIN on. -/
def lcdAfter (m : BusMode) (t : Transfer) (l : Lcd) : Lcd :=
  match classify m t l with
  | .half v => { l with wakes := nextWakes m t l.wakes, phase := .four (some v) }
  | .garbled => anyLcd (nextWakes m t l.wakes) { l with wakes := nextWakes m t l.wakes }
  | .word p c =>
    match decode p c with
    | .error _ => anyLcd (nextWakes m t l.wakes) { l with wakes := nextWakes m t l.wakes }
    | .ok i =>
      match exec i (withLcd { l with wakes := nextWakes m t l.wakes, phase := dropHalf l.phase } State.reset) with
      | .next u => u.lcd
      | .fault _ => l
      | .refused _ => l

/-- A bus word does to the module what it does to it in any other state, and leaves its count of wake-up values. -/
theorem exec_busWord_lcd {i : Instr} (hi : Instr.isBusWord i = true) (s s' : State) (h : s.lcd = s'.lcd) :
    ∃ l, exec i s = .next (withLcd l s) ∧ exec i s' = .next (withLcd l s') ∧ l.wakes = s.lcd.wakes := by
  cases i with
  | lcdBegin => simp [Instr.isBusWord] at hi
  | clear => simp [Instr.isBusWord] at hi
  | setCursor => simp [Instr.isBusWord] at hi
  | printChar => simp [Instr.isBusWord] at hi
  | printEnd => simp [Instr.isBusWord] at hi
  | getColumns => simp [Instr.isBusWord] at hi
  | getRows => simp [Instr.isBusWord] at hi
  | reserved0 => simp [Instr.isBusWord] at hi
  | reserved8F => simp [Instr.isBusWord] at hi
  | setDdramAddr a =>
    by_cases hv : lcdValidAddr s.lcd.twoLine a = true
    · exact ⟨{ s.lcd with ac := a }, by simp [exec, execSetDdramAddr, lcdSetAddr, hv],
        by simp [exec, execSetDdramAddr, lcdSetAddr, ← h, hv], rfl⟩
    · exact ⟨anyLcd s.lcd.wakes s.lcd, by simp [exec, execSetDdramAddr, lcdSetAddr, hv, garbleLcd],
        by simp [exec, execSetDdramAddr, lcdSetAddr, ← h, hv, garbleLcd], rfl⟩
  | writeData ch =>
    exact ⟨{ s.lcd with
      ddram := ddramWrite s.lcd.ddram s.lcd.ac.toNat ch, ac := lcdNextAddr s.lcd, freeIdx := s.lcd.freeIdx + 1 },
      rfl, by rw [h]; rfl, rfl⟩
  | initNibble3 =>
    exact ⟨{ s.lcd with
      phase := .eight, twoLine := Config.lcdFlag s.lcd.freeIdx 0, font := Config.lcdFlag s.lcd.freeIdx 6
      freeIdx := s.lcd.freeIdx + 1 },
      rfl, by rw [h]; rfl, rfl⟩
  | switchNibble2 =>
    exact ⟨{ s.lcd with
      phase := .four none, twoLine := Config.lcdFlag s.lcd.freeIdx 0, font := Config.lcdFlag s.lcd.freeIdx 6
      freeIdx := s.lcd.freeIdx + 1 },
      rfl, by rw [h]; rfl, rfl⟩
  | initByte30 => exact ⟨{ s.lcd with phase := .eight, twoLine := false, font := false }, rfl, by rw [h]; rfl, rfl⟩
  | fset4Bit1Line => exact ⟨{ s.lcd with phase := .four none, twoLine := false, font := false }, rfl, by rw [h]; rfl, rfl⟩
  | fset4Bit2Line => exact ⟨{ s.lcd with phase := .four none, twoLine := true, font := false }, rfl, by rw [h]; rfl, rfl⟩
  | fset8Bit1Line => exact ⟨{ s.lcd with phase := .eight, twoLine := false, font := false }, rfl, by rw [h]; rfl, rfl⟩
  | fset8Bit2Line => exact ⟨{ s.lcd with phase := .eight, twoLine := true, font := false }, rfl, by rw [h]; rfl, rfl⟩
  | displayControl =>
    exact ⟨{ s.lcd with displayOn := true, cursorOn := false, blinkOn := false }, rfl, by rw [h]; rfl, rfl⟩
  | clearDisplay => exact ⟨{ s.lcd with ddram := [], ac := 0 }, rfl, by rw [h]; rfl, rfl⟩
  | entryMode => exact ⟨{ s.lcd with increment := true, shift := false }, rfl, by rw [h]; rfl, rfl⟩

/-- A word that a transfer completes is never a host command. -/
theorem classify_isBusWord {m : BusMode} {t : Transfer} {l : Lcd} {p : Bool} {c : Code} {i : Instr}
    (hc : classify m t l = .word p c) (hd : decode p c = .ok i) : Instr.isBusWord i = true := by
  cases c with
  | host w =>
    exfalso
    revert hc
    unfold classify loneWord
    grind
  | nibble w => exact decodeNibble_isBusWord hd
  | byte w => exact decodeByte_isBusWord hd

/-- The step's part in which the module takes a transfer, from BEGIN on. -/
theorem receive_next (t : Transfer) {s : State} (hb : beforeBegin s = false) :
    (match receive t s with
      | .goes s' => .next s'
      | .runs i s' => exec i s'
      | .stops f => .fault f
      | .refuses r => .refused r) =
    (.next (withLcd (lcdAfter s.cfg.busMode t s.lcd) s) : Host.Outcome State Fault Refusal) := by
  simp only [receive, lcdAfter, reading_of_begun hb]
  cases hc : classify s.cfg.busMode t s.lcd with
  | half v => rfl
  | garbled => rfl
  | word p c =>
    simp only []
    cases hd : decode p c with
    | error e => rfl
    | ok i =>
      obtain ⟨l, h1, h2, -⟩ := exec_busWord_lcd (classify_isBusWord hc hd)
        (takeWord (nextWakes s.cfg.busMode t s.lcd.wakes) s)
        (withLcd { s.lcd with
          wakes := nextWakes s.cfg.busMode t s.lcd.wakes, phase := dropHalf s.lcd.phase } State.reset) rfl
      simp only [h1, h2]
      rfl

/-- The count of wake-up values after a transfer. -/
theorem lcdAfter_wakes (m : BusMode) (t : Transfer) (l : Lcd) : (lcdAfter m t l).wakes = nextWakes m t l.wakes := by
  unfold lcdAfter
  cases hc : classify m t l with
  | half v => rfl
  | garbled => rfl
  | word p c =>
    simp only []
    cases hd : decode p c with
    | error e => rfl
    | ok i =>
      obtain ⟨l', h1, -, hw⟩ := exec_busWord_lcd (classify_isBusWord hc hd)
        (withLcd { l with wakes := nextWakes m t l.wakes, phase := dropHalf l.phase } State.reset) _ rfl
      simp only [h1]
      exact hw

end Sys2Proof.Machine
end

