-- ==== Sys2Proof/Tests/Slice0.lean ====
section
/-! SUPPORT. The model's own tests: the well-formedness check, words written out from the spec's encodings, the spec's
test vectors (95_test_vectors.md), each on one step, and for each statement with hypotheses a state that meets them. -/

namespace Sys2Proof.Tests

open Sys2Proof.Machine

/-! States. -/

/-- The EIGHT_BIT build of the vectors. -/
def eightConfig : Config := { standardConfig with busMode := .eightBit, nData := 8 }

/-- After `BEGIN columns, rows`, as far as the engine's registers go. -/
def readyAs (c : Config) (columns rows : Byte) : State :=
  { State.afterReset c with columns := columns, rows := rows, initState := .ready }

/-- An engine with the trap, after reset. -/
def trapped : State := State.afterReset { standardConfig with trapUninit := true }

/-- An engine that is about to perform one micro-op. -/
def performing (m : MicroOp) : State := { State.reset with busy := true, seq := [m] }

/-- The same with a draw for the cycle. -/
def performingWith (d : Draw) (m : MicroOp) : State := { performing m with draws := [d] }

def pinFails : Draw := { Draw.quiet with pinErr := true }

def resets : Draw := { Draw.quiet with rstN := false }

/-- The next state, where there is one. -/
def after (o : Host.Outcome State Fault Refusal) : State :=
  match o with
  | .next t => t
  | .fault _ => State.reset
  | .refused _ => State.reset

/-- A module in its 4-bit interface with two lines, as BEGIN leaves it. -/
def readyLcd : Lcd :=
  { Lcd.powerUp with phase := .four none, twoLine := true, displayOn := true, increment := true }

def withModule (l : Lcd) : State := { State.reset with lcd := l }

/-! Well-formedness: the one check, and both ends of its range (R102). -/

theorem test_ill_formed_reserved : (Instr.reserved8F 0x3#4 0x0000#16).wellFormed = false := by decide
theorem test_ill_formed_reserved_7 : (Instr.reserved8F 0x7#4 0x0000#16).wellFormed = false := by decide
theorem test_well_formed_reserved_8 : (Instr.reserved8F 0x8#4 0x0000#16).wellFormed = true := by decide

/-! Decoding: one word for each constructor, from R100 to R103 and R107. -/

theorem test_decode_begin : decodeTableWord 24 0b0001_00010000_00000010 = some (.lcdBegin 16 2) := by decide
theorem test_decode_clear : decodeTableWord 24 0b0010_11111111_11111111 = some (.clear 0xFFFF) := by decide
theorem test_decode_set_cursor : decodeTableWord 24 0b0011_00001111_00000001 = some (.setCursor 15 1) := by decide
theorem test_decode_print_char : decodeTableWord 24 0b0100_01111110_01000001 = some (.printChar 0x7E 0x41) := by decide
theorem test_decode_print_end : decodeTableWord 24 0b0101_00000000_00000000 = some (.printEnd 0) := by decide
theorem test_decode_get_columns : decodeTableWord 24 0b0110_00000001_00000000 = some (.getColumns 0x0100) := by decide
theorem test_decode_get_rows : decodeTableWord 24 0b0111_00000000_00000001 = some (.getRows 0x0001) := by decide
theorem test_decode_reserved_0 : decodeTableWord 24 0b0000_00000000_00000101 = some (.reserved0 5) := by decide
theorem test_decode_reserved_8 : decodeTableWord 24 0b1000_00000000_00000101 = some (.reserved8F 8 5) := by decide
theorem test_decode_reserved_F : decodeTableWord 24 0b1111_10000000_00000001 = some (.reserved8F 15 0x8001) := by decide
theorem test_decode_init_nibble : decodeTableWord 8 0b0_0011 = some .initNibble3 := by decide
theorem test_decode_switch_nibble : decodeTableWord 8 0b0_0010 = some .switchNibble2 := by decide
theorem test_decode_init_byte : decode true (.byte 0b0_00110000) = .ok .initByte30 := by decide
theorem test_decode_fset_20 : decodeTableWord 16 0b0_00100000 = some .fset4Bit1Line := by decide
theorem test_decode_fset_28 : decodeTableWord 16 0b0_00101000 = some .fset4Bit2Line := by decide
theorem test_decode_fset_30 : decodeTableWord 16 0b0_00110000 = some .fset8Bit1Line := by decide
theorem test_decode_fset_38 : decodeTableWord 16 0b0_00111000 = some .fset8Bit2Line := by decide
theorem test_decode_display : decodeTableWord 16 0b0_00001100 = some .displayControl := by decide
theorem test_decode_clear_display : decodeTableWord 16 0b0_00000001 = some .clearDisplay := by decide
theorem test_decode_entry_mode : decodeTableWord 16 0b0_00000110 = some .entryMode := by decide
theorem test_decode_set_address : decodeTableWord 16 0b0_11000000 = some (.setDdramAddr 0x40) := by decide
theorem test_decode_data : decodeTableWord 16 0b1_10001000 = some (.writeData 0x88) := by decide
/-- R107: no return-home, no lone nibble 0x0, no RS = 1 lone nibble; no bit above the format. -/
theorem test_rejects : decodeTableWord 16 0b0_00000010 = none ∧ decodeTableWord 8 0b0_0000 = none ∧
    decodeTableWord 8 0b1_0011 = none ∧ decodeTableWord 24 0x111002 = none ∧ decodeTableWord 32 0 = none := by decide

/-! Words placed where the next step runs them. -/

theorem test_fetch_begin : step (State.reset.withFetchWord 24 0x11002) =
    exec (.lcdBegin 16 2) (takeCommand (beginCycle (State.reset.withFetchWord 24 0x11002))) := rfl
theorem test_fetch_nibble : (after (step (State.reset.withFetchWord 8 0x02))).lcd.phase = .four none := by decide
theorem test_fetch_byte : (after (step (State.reset.withFetchWord 16 0x0C1))).lcd.ac = 0x41 := by decide

/-! Host commands. -/

/-- V3, V8: BEGIN is accepted with the trap; STATUS is 0x0001 in FOUR_BIT and 0x0081 in EIGHT_BIT, and the geometry is
stored (R140). -/
theorem test_begin_accepted : status (after (exec (.lcdBegin 16 2) trapped)) = 0x0001 ∧
    status (after (exec (.lcdBegin 16 2) (State.afterReset eightConfig))) = 0x0081 ∧
    (after (exec (.lcdBegin 255 0) State.reset)).columns = 255 := by decide
/-- V3: the transfers of BEGIN in FOUR_BIT, with `rows` 2. -/
theorem test_begin_transfers :
    transfersOf .fourBit false false 0 (after (exec (.lcdBegin 16 2) State.reset)).seq =
      [⟨false, 3⟩, ⟨false, 3⟩, ⟨false, 3⟩, ⟨false, 2⟩, ⟨false, 2⟩, ⟨false, 8⟩, ⟨false, 0⟩, ⟨false, 0xC⟩,
        ⟨false, 0⟩, ⟨false, 1⟩, ⟨false, 0⟩, ⟨false, 6⟩] := by decide
/-- V4: CLEAR in both modes; the ignored fields have no effect. -/
theorem test_clear_transfers :
    transfersOf .fourBit true false 0 (after (exec (.clear 0xFFFF) State.reset)).seq = [⟨false, 0⟩, ⟨false, 1⟩] ∧
    transfersOf .eightBit true false 0 (after (exec (.clear 0) (State.afterReset eightConfig))).seq =
      [⟨false, 0x01⟩] := by decide
/-- V8: CLEAR with the trap in UNINIT. -/
theorem test_clear_trapped : status (after (exec (.clear 0) trapped)) = 0x0234 := by decide
/-- V5: `SET_CURSOR 0x2C, 3`, where bit 7 merges, and `SET_CURSOR 15, 1`. -/
theorem test_cursor_transfers :
    transfersOf .fourBit true false 0 (after (exec (.setCursor 0x2C 3) (readyAs standardConfig 20 4))).seq =
      [⟨false, 8⟩, ⟨false, 0⟩] ∧
    transfersOf .eightBit true false 0 (after (exec (.setCursor 15 1) (readyAs eightConfig 20 2))).seq =
      [⟨false, 0xCF⟩] := by decide
/-- V5: the three faults, at the boundaries of their ranges, and the last column that passes. -/
theorem test_cursor_faults :
    status (after (exec (.setCursor 0xAC 3) (readyAs standardConfig 20 4))) = 0x031E ∧
    status (after (exec (.setCursor 0xAB 3) (readyAs standardConfig 20 4))) = 0x0003 ∧
    status (after (exec (.setCursor 0 4) (readyAs eightConfig 20 4))) = 0x038E ∧
    status (after (exec (.setCursor 0xFF 4) (readyAs standardConfig 20 5))) = 0x0316 := by decide
/-- V6: `PRINT_CHAR 0xFF` and `'A'` with an ignored A. -/
theorem test_print_transfers :
    transfersOf .fourBit false false 0 (after (exec (.printChar 0x7E 0x41) State.reset)).seq =
      [⟨true, 4⟩, ⟨true, 1⟩] ∧
    transfersOf .eightBit false false 0 (after (exec (.printChar 0 0xFF) (State.afterReset eightConfig))).seq =
      [⟨true, 0xFF⟩] := by decide
/-- V8: PRINT_CHAR with the trap. -/
theorem test_print_trapped : status (after (exec (.printChar 0 0x41) trapped)) = 0x0434 := by decide
/-- V6: PRINT_END is one wait. -/
theorem test_print_end : (after (exec (.printEnd 0) State.reset)).seq = [.wait .tPrintEnd] := by decide
/-- V8: PRINT_END with the trap. -/
theorem test_print_end_trapped : status (after (exec (.printEnd 0) trapped)) = 0x0534 := by decide
/-- V7: GET_COLUMNS after `BEGIN 16, 2` answers 16, one edge later. -/
theorem test_get_columns :
    (after (step (after (exec (.getColumns 0) (readyAs standardConfig 16 2))))).rspData = 16 ∧
    (after (exec (.getColumns 0) trapped)).fault = false := by decide
/-- V7: GET_ROWS after `BEGIN 16, 2` answers 2. -/
theorem test_get_rows : (after (step (after (exec (.getRows 0) (readyAs standardConfig 16 2))))).rspData = 2 := by
  decide
/-- V8: OP 0 faults with `fault_op` 0, with the trap too. -/
theorem test_reserved_0 : status (after (exec (.reserved0 0) trapped)) = 0x002C := by decide
/-- V8: OP 8 and OP F record themselves. -/
theorem test_reserved_8F : status (after (exec (.reserved8F 8 0) State.reset)) = 0x082C ∧
    status (after (exec (.reserved8F 15 0xFFFF) State.reset)) = 0x0F2C := by decide

/-! Micro-ops (V1). -/

theorem test_drive_rs : (after (step (performing (.drvRS true)))).rsQ = true := by decide
theorem test_rising_edge : (after (step (performing (.drvE true)))).transfers = [] := by decide
theorem test_falling_edge :
    (after (step { performing (.drvE false) with eQ := true, rsQ := true, dQ := 0x4 })).transfers = [⟨true, 0x4⟩] := by
  decide
theorem test_no_edge : (after (step { performing (.drvE false) with rsQ := true, dQ := 0x4 })).transfers = [] := by
  decide
theorem test_drive_d : (after (step (performing (.drvD 0x9)))).dQ = 0x9 ∧
    (after (step { performing (.drvD 0xA5) with cfg := eightConfig })).dQ = 0xA5 ∧
    (after (step (performing (.drvD 0xA5)))).dQ = 0x05 := by decide
/-- V1: the cycles of a wait at 1 MHz, 50 MHz and 1 kHz. -/
theorem test_wait_cycles : waitCycles standardConfig .tRs = 100 ∧
    waitCycles { standardConfig with fClkHz := 50000000 } .tRs = 5000 ∧
    waitCycles { standardConfig with fClkHz := 1000 } .tELow = 1 := by decide
/-- R35: the first cycle of a wait loads its cycles less one. -/
theorem test_wait_load : (after (step (performing (.wait .tRs)))).timer = 99 := by decide
/-- V9: a failed drive during PRINT_CHAR in READY gives STATUS 0x0426. -/
theorem test_pin_drive : status (after (step { readyAs standardConfig 16 2 with
    busy := true, curOp := 4, seq := [.drvRS true], draws := [pinFails] })) = 0x0426 := by decide
/-- V10: reset puts the pins to 0, with no response. -/
theorem test_reset_edge : (after (step { performingWith resets (.wait .tRs) with rsQ := true, dQ := 5 })).dQ = 0 ∧
    (after (step (performingWith resets (.wait .tRs)))).rspValid = false := by decide

/-! The words of the bus in the module (R107, 95 §4). -/

theorem test_init_nibble : (after (exec .initNibble3 State.reset)).lcd.phase = .eight := by decide
theorem test_switch_nibble : (after (exec .switchNibble2 State.reset)).lcd.phase = .four none := by decide
theorem test_init_byte : (after (exec .initByte30 State.reset)).lcd.phase = .eight := by decide
theorem test_fset_20 : (after (exec .fset4Bit1Line (withModule readyLcd))).lcd.twoLine = false := by decide
theorem test_fset_28 : (after (exec .fset4Bit2Line State.reset)).lcd.twoLine = true := by decide
/-- R110: F = 0 in every function set. -/
theorem test_fset_font : (after (exec .fset4Bit2Line (withModule { readyLcd with font := true }))).lcd.font = false ∧
    (after (exec .fset8Bit1Line (withModule { readyLcd with font := true }))).lcd.font = false := by decide
/-- R213, P3: a module that an idle reset has left in its 4-bit interface reads no PRINT_CHAR before BEGIN, and the
nibbles of BEGIN. -/
theorem test_before_begin : reading ⟨true, 4⟩ { withModule readyLcd with curOp := 4 } = .garbled ∧
    reading ⟨false, 3⟩ { withModule readyLcd with curOp := 1 } = .half 3 ∧
    reading ⟨true, 4⟩ { withModule readyLcd with curOp := 4, initState := .ready } = .half 4 := by decide
theorem test_fset_30 : (after (exec .fset8Bit1Line (withModule readyLcd))).lcd.phase = .eight := by decide
theorem test_fset_38 : (after (exec .fset8Bit2Line State.reset)).lcd.twoLine = true := by decide
theorem test_display_control : (after (exec .displayControl State.reset)).lcd.displayOn = true := by decide
theorem test_clear_display :
    ddramRead (after (exec .clearDisplay (withModule { readyLcd with ddram := [(3, 0x41)] }))).lcd.ddram 3 = 0x20 := by
  decide
theorem test_entry_mode : (after (exec .entryMode State.reset)).lcd.increment = true := by decide
theorem test_set_address : (after (exec (.setDdramAddr 0x40) (withModule readyLcd))).lcd.ac = 0x40 := by decide
/-- P1: 'H' is written at 0x40 and the counter moves on. -/
theorem test_write_data :
    (after (exec (.writeData 0x48) (withModule { readyLcd with ac := 0x40 }))).lcd.ddram = [(0x40, 0x48)] ∧
    (after (exec (.writeData 0x48) (withModule { readyLcd with ac := 0x40 }))).lcd.ac = 0x41 := by decide

/-! Assembly (R120, R121, V6). -/

theorem test_assemble_begin : assembleLine "BEGIN 16, 2".toList = some [0x11002] := by decide
theorem test_assemble_cursor : assembleLine "SET_CURSOR 0x27, 1".toList = some [0x32701] := by decide
theorem test_assemble_char : assembleLine "PRINT_CHAR 'H'".toList = some [0x40048] := by decide
theorem test_assemble_too_large : assembleLine "PRINT_CHAR 256".toList = none := by decide
theorem test_assemble_plain : assembleLine "CLEAR".toList = some [0x20000] ∧
    assembleLine "PRINT_END".toList = some [0x50000] ∧ assembleLine "GET_COLUMNS".toList = some [0x60000] ∧
    assembleLine "GET_ROWS".toList = some [0x70000] := by decide
theorem test_assemble_print : assembleLine "PRINT \"Hi\"".toList = some [0x40048, 0x40069, 0x50000] := by decide
theorem test_assemble_print_wide : assembleLine "PRINT \"é\"".toList = some [0x400E9, 0x50000] ∧
    assembleLine "PRINT \"€\"".toList = some [0x400AC, 0x50000] ∧
    assembleLine "PRINT \"\"".toList = some [0x50000] := by decide
/-- Blanks at the end of a PRINT line, and inside its text (log 11). -/
theorem test_assemble_print_blanks : assembleLine "PRINT \"H \"  ".toList = some [0x40048, 0x40020, 0x50000] ∧
    assembleLine "PRINT \"H\" i".toList = none := by decide

/-! Witnesses: for each statement with hypotheses, states and operands that meet them. -/

/-- An idle engine in READY. -/
def readyState : State := readyAs standardConfig 16 2

/-- The same with a BEGIN on the command port. -/
def hosted : State := { readyState with host := [0x11002] }

/-- An engine in the fault state. -/
def faulted : State := { State.reset with fault := true, cause := 1, faultOp := 3 }

/-- A BEGIN before its last edge. -/
def ending : State :=
  { State.reset with
    busy := true, curOp := 1, argA := 16, argB := 2, columns := 16, rows := 2, seq := beginSeq .fourBit 2, upc := 104 }

theorem witness_readyState_inv : Inv readyState where
  built := by decide
  sequencer := ⟨by decide, by decide, by decide⟩
  enable := ⟨by decide, by decide⟩
  timer := ⟨by decide, fun h => absurd rfl h⟩
  fault := ⟨by decide, by decide, by decide, by decide⟩
  pins := by unfold PinsOk; decide
  geometry := by unfold GeometryOk; decide
  response := by unfold ResponseOk; decide
  lcd := ⟨by decide, by decide⟩

theorem witness_hosted_inv : Inv hosted where
  built := witness_readyState_inv.built
  sequencer := witness_readyState_inv.sequencer
  enable := witness_readyState_inv.enable
  timer := witness_readyState_inv.timer
  fault := witness_readyState_inv.fault
  pins := witness_readyState_inv.pins
  geometry := witness_readyState_inv.geometry
  response := witness_readyState_inv.response
  lcd := witness_readyState_inv.lcd

theorem witness_trapped_inv : Inv trapped where
  built := by decide
  sequencer := ⟨by decide, by decide, by decide⟩
  enable := ⟨by decide, by decide⟩
  timer := ⟨by decide, fun h => absurd rfl h⟩
  fault := ⟨by decide, by decide, by decide, by decide⟩
  pins := by unfold PinsOk; decide
  geometry := by unfold GeometryOk; decide
  response := by unfold ResponseOk; decide
  lcd := ⟨by decide, by decide⟩

theorem witness_faulted_inv : Inv faulted where
  built := by decide
  sequencer := ⟨by decide, by decide, by decide⟩
  enable := ⟨by decide, by decide⟩
  timer := ⟨by decide, fun h => absurd rfl h⟩
  fault := ⟨by decide, by decide, by decide, by decide⟩
  pins := by unfold PinsOk; decide
  geometry := by unfold GeometryOk; decide
  response := by unfold ResponseOk; decide
  lcd := ⟨by decide, by decide⟩

theorem witness_EncodedInstructionDecodesBack : (Instr.reserved8F 0x8#4 0xFFFF#16).wellFormed = true ∧
    Instr.initByte30.wellFormed = true := by decide
theorem witness_DecodedWordEncodesBack : decode true (.byte 0x030) = .ok .initByte30 ∧
    decode false (.nibble 0x02) = .ok .switchNibble2 ∧
    decode false (.host 0x80000) = .ok (.reserved8F 8 0) := by decide
/-- The last OP of the first reserved row's neighbours and both ends of the second. -/
theorem witness_OpcodeMapIsComplete : 8 ≤ (0x8#4).toNat ∧ 8 ≤ (0xF#4).toNat ∧ ¬ 8 ≤ (0x7#4).toNat := by decide
theorem witness_EveryTransferIsATableWord : (expansionOf .eightBit 4 0x3 0xAB 3).isSome = true ∧
    (expansionOf .fourBit 4 0x3 0xAB 3).isSome = true ∧ (expansionOf .fourBit 0 0x1 0 0).isSome = true := by decide
theorem witness_BeginIsAccepted : readyState.busy = false ∧ readyState.fault = false := by decide
/-- Both ways the uninitialized-use check does not hold. -/
theorem witness_TextCommandsAreAccepted : State.reset.busy = false ∧ State.reset.fault = false ∧
    (State.reset.cfg.trapUninit = false ∨ State.reset.initState = .ready) ∧
    ({ trapped with initState := .ready } : State).initState = .ready := by decide
theorem witness_GettersAnswerTheGeometry : trapped.busy = false ∧ trapped.fault = false ∧
    buildable trapped.cfg = true ∧ ∀ d ∈ trapped.draws.head?, d.rstN = true := by decide
/-- `rows` 4 and 5 with `row` 3, 4 and 5, and the columns on both sides of the overflow (R205): each clause at the
boundary of its range. -/
theorem witness_SetCursorChecksInOrder :
    (readyAs standardConfig 20 4).busy = false ∧ (readyAs standardConfig 20 4).fault = false ∧
    (readyAs standardConfig 20 4).cfg.trapUninit = false ∧
    (4#8).toNat ≤ (4#8).toNat ∧ (¬ (5#8).toNat ≤ (4#8).toNat ∧ 4 ≤ (4#8).toNat) ∧
    (¬ (4#8).toNat ≤ (3#8).toNat ∧ ¬ 4 ≤ (3#8).toNat ∧ 0xFF < (0xAC#8).toNat + 0x54 ∧
      ¬ 0xFF < (0xAB#8).toNat + 0x54) := by decide
theorem witness_ReservedOpRaisesIllegalOp : (0x0#4 = 0x0#4 ∨ 8 ≤ (0x0#4).toNat) ∧ (0x8#4 = 0x0#4 ∨ 8 ≤ (0x8#4).toNat) ∧
    readyState.busy = false ∧ readyState.fault = false := by decide
/-- Both clauses: the trap holds for CLEAR to PRINT_END, and not for the OPs beside them. -/
theorem witness_UninitializedUseIsTrapped : trapped.busy = false ∧ trapped.fault = false ∧
    trapped.cfg.trapUninit = true ∧ trapped.initState = .uninit ∧
    ¬ (0x1#4 = 0x2#4 ∨ 0x1#4 = 0x3#4 ∨ 0x1#4 = 0x4#4 ∨ 0x1#4 = 0x5#4) ∧
    ¬ (0x6#4 = 0x2#4 ∨ 0x6#4 = 0x3#4 ∨ 0x6#4 = 0x4#4 ∨ 0x6#4 = 0x5#4) := by decide
theorem witness_NotReadyAcceptsNothing : ending.busy = true ∧ faulted.fault = true := by decide
theorem witness_NoCursorBeforeBegin : Inv trapped ∧ trapped.busy = false ∧ trapped.fault = false ∧
    trapped.initState = .uninit := ⟨witness_trapped_inv, by decide, by decide, by decide⟩
theorem witness_CommandAcceptanceFrame : ∃ t, exec (decodeCommand 0x40048) readyState = .next t ∧ t.busy = true :=
  ⟨_, rfl, by decide⟩
/-- Both clauses, at the ends of the ranges of the two line modes (I5). -/
theorem witness_SetAddressMovesTheCounter : lcdValidAddr true 0x27 = true ∧ lcdValidAddr true 0x28 = false ∧
    lcdValidAddr true 0x67 = true ∧ lcdValidAddr true 0x68 = false ∧ lcdValidAddr true 0x3F = false ∧
    lcdValidAddr false 0x4F = true ∧ lcdValidAddr false 0x50 = false := by decide
/-- The last address of the first row, after which the next is the module's own, and the one before it. -/
theorem witness_CharacterIsWrittenAtTheCounter : LcdOk (withModule { readyLcd with ac := 0x26 }) ∧
    lcdValidAddr true (0x26 + 1) = true ∧ lcdValidAddr true (0x27 + 1) = false :=
  ⟨⟨by decide, by decide⟩, by decide, by decide⟩
theorem witness_BusWordFrame : decodeByte false 0x006 = .ok .entryMode ∧
    ∃ t, exec .entryMode (withModule readyLcd) = .next t := ⟨by decide, _, rfl⟩
theorem witness_StepRunsTheAcceptedCommand : buildable hosted.cfg = true ∧ hosted.busy = false ∧
    hosted.fault = false ∧ (currentDraw hosted).rstN = true ∧ presented hosted = some 0x11002 ∧
    presented readyState = none ∧ buildable readyState.cfg = true ∧ readyState.busy = false ∧
    readyState.fault = false ∧ (currentDraw readyState).rstN = true := by decide
/-- The low nibble of a pair, with E high. -/
theorem witness_StepRunsTheBusWord :
    let s : State := { performing (.drvE false) with
      initState := .ready, eQ := true, dQ := 0x8, lcd := { readyLcd with phase := .four (some 0x2) } }
    buildable s.cfg = true ∧ s.busy = true ∧ (currentDraw s).rstN = true ∧ (currentDraw s).pinErr = false ∧
      (currentDraw s).lcdMisses = false ∧ s.seq[s.upc]? = some (.drvE false) ∧ s.eQ = true ∧
      reading ⟨s.rsQ, s.dQ⟩ s = .word false (.byte 0x028) ∧
      decode false (.byte 0x028) = .ok .fset4Bit2Line := by decide
/-- A PRINT_CHAR after reset, before two modules that hold different things. -/
theorem witness_UseBeforeBeginLeavesTheModuleOpen :
    let s : State := { performing (.drvE false) with curOp := 4, eQ := true, rsQ := true, dQ := 0x4 }
    buildable s.cfg = true ∧ s.busy = true ∧ s.initState = .uninit ∧ s.curOp ≠ 0x1#4 ∧
      (currentDraw s).rstN = true ∧ (currentDraw s).pinErr = false ∧ (currentDraw s).lcdMisses = false ∧
      s.seq[s.upc]? = some (.drvE false) ∧ s.eQ = true ∧
      readyLcd.wakes = s.lcd.wakes ∧ readyLcd.freeIdx = s.lcd.freeIdx ∧ readyLcd ≠ s.lcd := by decide
/-- A step that moves each of the three groups of pins. -/
theorem witness_PinsMoveOnlyInTheirDrives :
    (∃ t, step (performing (.drvRS true)) = .next t ∧ t.rsQ ≠ (performing (.drvRS true)).rsQ) ∧
    (∃ t, step (performing (.drvE true)) = .next t ∧ t.eQ ≠ (performing (.drvE true)).eQ) ∧
    (∃ t, step (performing (.drvD 0x9)) = .next t ∧ t.dQ ≠ (performing (.drvD 0x9)).dQ) ∧
    (currentDraw (performing (.drvD 0x9))).rstN = true :=
  ⟨⟨_, rfl, by decide⟩, ⟨_, rfl, by decide⟩, ⟨_, rfl, by decide⟩, by decide⟩
theorem witness_DriveSelectTakesOneCycle :
    buildable (performingWith pinFails (.drvRS true)).cfg = true ∧ (performing (.drvRS true)).busy = true ∧
    (currentDraw (performingWith pinFails (.drvRS true))).rstN = true ∧
    (currentDraw (performingWith pinFails (.drvRS true))).pinErr = true ∧
    (currentDraw (performing (.drvRS true))).pinErr = false ∧
    (performing (.drvRS true)).seq[(performing (.drvRS true)).upc]? = some (.drvRS true) := by decide
theorem witness_DriveDataTakesOneCycle :
    (performing (.drvD 0xA5)).seq[(performing (.drvD 0xA5)).upc]? = some (.drvD 0xA5) ∧
    (performing (.drvD 0xA5)).busy = true ∧ buildable (performing (.drvD 0xA5)).cfg = true ∧
    (currentDraw (performing (.drvD 0xA5))).rstN = true ∧ (currentDraw (performing (.drvD 0xA5))).pinErr = false ∧
    (currentDraw (performingWith pinFails (.drvD 0xA5))).pinErr = true := by decide
theorem witness_DriveEnableTakesOneCycle :
    let s : State := { performing (.drvE false) with eQ := true }
    buildable s.cfg = true ∧ s.busy = true ∧ (currentDraw s).rstN = true ∧
      s.seq[s.upc]? = some (.drvE false) ∧ (currentDraw s).pinErr = false ∧
      (s.eQ = true ∧ false = false) ∧ ¬ (s.eQ = true ∧ true = false) := by decide
theorem witness_TransferExactlyAtFallingEnable :
    let s : State := { performing (.drvE false) with eQ := true, lcd := readyLcd }
    (∃ t, step s = .next t) ∧ (currentDraw s).rstN = true ∧ (currentDraw s).pinErr = false :=
  ⟨⟨_, rfl⟩, by decide, by decide⟩
/-- A wait of two cycles, so that there is a moment inside it. -/
theorem witness_WaitHoldsItsCycles :
    let s := performing (.wait .tELow)
    buildable s.cfg = true ∧ s.busy = true ∧ s.timer = 0 ∧ s.seq[s.upc]? = some (.wait .tELow) ∧
      (∀ d ∈ s.draws.take (waitCycles s.cfg .tELow), d.rstN = true ∧ d.hold = false) ∧
      0 < 1 ∧ 1 < waitCycles s.cfg .tELow := by decide
theorem witness_WaitMayLastLonger : buildable (performing (.wait .tRs)).cfg = true ∧
    (performing (.wait .tRs)).busy = true ∧ (performing (.wait .tRs)).timer = 0 ∧
    (performing (.wait .tRs)).seq[(performing (.wait .tRs)).upc]? = some (.wait .tRs) := by decide
theorem witness_TimerHoldsEveryWait : buildable standardConfig = true ∧ buildable eightConfig = true := by decide
theorem witness_PinErrorOutsideDriveIsIgnored : (performing (.wait .tRs)).busy = true ∧
    ∀ m, (performing (.wait .tRs)).seq[(performing (.wait .tRs)).upc]? = some m → ∃ w, m = .wait w :=
  ⟨rfl, fun _ h => ⟨.tRs, (Option.some.inj h).symm⟩⟩
/-- A step that raises PIN_DRIVE, and one that does not (an acceptance-time fault). -/
theorem witness_PinDriveFaultExactlyAtFailedDrive :
    (∃ t, step (performingWith pinFails (.drvRS true)) = .next t ∧ t.fault = true ∧ t.cause = 4) ∧
    (performingWith pinFails (.drvRS true)).fault = false ∧
    (currentDraw (performingWith pinFails (.drvRS true))).rstN = true ∧
    (∃ t, step { readyState with host := [0x30002] } = .next t ∧ t.fault = true ∧ t.cause = 1) ∧
    (expansionOf .fourBit 2 0x5 0 0).isSome = true :=
  ⟨⟨_, rfl, by decide, by decide⟩, by decide, by decide, ⟨_, rfl, by decide, by decide⟩, by decide⟩
/-- A fault at acceptance, and one at a failed drive of a high E. -/
theorem witness_FaultEntryIsUniform :
    (∃ t, step { readyState with host := [0x30002] } = .next t ∧ readyState.fault = false ∧ t.fault = true) ∧
    (∃ t, step { performingWith pinFails (.drvE false) with eQ := true } = .next t ∧ t.fault = true) :=
  ⟨⟨_, rfl, by decide, by decide⟩, ⟨_, rfl, rfl⟩⟩
theorem witness_FaultStateIsSticky : buildable faulted.cfg = true ∧ faulted.fault = true ∧ faulted.busy = false ∧
    (currentDraw faulted).rstN = true ∧ (currentDraw { faulted with draws := [resets] }).rstN = false := by decide
theorem witness_ResetEdgeGivesResetValues : buildable (performingWith resets (.wait .tRs)).cfg = true ∧
    (currentDraw (performingWith resets (.wait .tRs))).rstN = false := by decide
theorem witness_RunningCommandIsFixed : ∃ t, step (performing (.wait .tRs)) = .next t ∧
    (performing (.wait .tRs)).busy = true ∧ t.busy = true := ⟨_, rfl, by decide, by decide⟩
/-- A BEGIN that completes, and a reset that ends READY. -/
theorem witness_OnlyCompletedBeginMakesReady :
    (∃ t, step ending = .next t ∧ ending.initState = .uninit ∧ t.initState = .ready) ∧
    (∃ t, step { readyState with draws := [resets] } = .next t ∧ readyState.initState = .ready ∧
      t.initState = .uninit) :=
  ⟨⟨_, rfl, by decide, by decide⟩, ⟨_, rfl, by decide, by decide⟩⟩
/-- BEGIN, and reset. -/
theorem witness_OnlyBeginWritesGeometry :
    (∃ t, step { readyState with host := [0x11404] } = .next t ∧ t.rows ≠ readyState.rows) ∧
    (∃ t, step { readyState with draws := [resets] } = .next t ∧ t.columns ≠ readyState.columns) :=
  ⟨⟨_, rfl, by decide⟩, ⟨_, rfl, by decide⟩⟩
theorem witness_OnlyResetClearsTheFault : Inv faulted ∧ (∃ t, step faulted = .next t) ∧ faulted.fault = true :=
  ⟨witness_faulted_inv, ⟨_, rfl⟩, by decide⟩
theorem witness_EveryStepKeepsTheInvariant : Inv readyState ∧ ∃ t, step readyState = .next t :=
  ⟨witness_readyState_inv, _, rfl⟩
theorem witness_ResetStateIsGood : elaborate true eightConfig = some (State.afterReset eightConfig) := by decide
theorem witness_GoodStatesProceed : Inv faulted := witness_faulted_inv
theorem witness_EngineNeverReadsTheModule : readyState ≠ { readyState with lcd := readyLcd } ∧
    engineView readyState = engineView { readyState with lcd := readyLcd } ∧
    (∃ t, step readyState = .next t) ∧ ∃ t, step { readyState with lcd := readyLcd } = .next t :=
  ⟨by decide, by decide, ⟨_, rfl⟩, ⟨_, rfl⟩⟩
/-- The first rising edge of a SEND. -/
theorem witness_StrobeDiscipline : (expansionOf .eightBit 0 0x2 0 0) = some (clearSeq .eightBit) ∧
    (clearSeq .eightBit)[5]? = some (.drvE true) := by decide
theorem witness_CycleCountsOfTheCommands : standardConfig.fClkHz = 1000000 ∧ standardConfig.delays = defaultDelays := by
  decide
theorem witness_AcceptedCommandRunsToItsResponse :
    let s := after (exec (.printEnd 0) readyState)
    buildable s.cfg = true ∧ s.busy = true ∧ s.upc = 0 ∧ s.timer = 0 ∧ QuietFor (responseEdges s.cfg s.seq) s := by
  unfold QuietFor
  decide
theorem witness_BeginInitializesAnyModule : Inv hosted ∧ hosted.busy = false ∧ hosted.fault = false ∧
    hosted.host.head? = some (commandWord 0x1 16 2) ∧
    QuietFor (1 + responseEdges hosted.cfg (beginSeq hosted.cfg.busMode 2)) hosted :=
  ⟨witness_hosted_inv, by decide, by decide, by decide, by unfold QuietFor; decide⟩
theorem witness_MismatchedLinesAreRefused :
    ((eightConfig.busMode = .eightBit ∧ ({ eightConfig with nData := 7 } : Config).nData ≠ 8)) ∧
    (standardConfig.busMode = .fourBit ∧ ({ standardConfig with nData := 8 } : Config).nData ≠ 4) ∧
    buildable standardConfig = true := by decide

end Sys2Proof.Tests
end

section
/-! SUPPORT. The fields of the status port (R39), the reset edge forwards (R44, R280, R281), and the statements on the
state that follow from them. -/

namespace Sys2Proof.Machine

/-! The fields of the status port. -/

@[simp] theorem modeBit_eq (m : BusMode) : modeBit m = decide (m = .eightBit) := by cases m <;> rfl

@[simp] theorem readyBit_eq (i : InitState) : readyBit i = decide (i = .ready) := by cases i <;> rfl

theorem status_busyBit (s : State) : (status s).getLsbD 0 = s.busy := by simp [status]

theorem status_readyBit (s : State) : (status s).getLsbD 1 = decide (s.initState = .ready) := by simp [status]

theorem status_faultBit (s : State) : (status s).getLsbD 2 = s.fault := by simp [status]

theorem status_modeBit (s : State) : (status s).getLsbD 7 = decide (s.cfg.busMode = .eightBit) := by simp [status]

theorem status_causeField (s : State) : (status s).extractLsb' 3 4 = s.cause := by
  ext i hi
  simp [status]
  grind

theorem status_faultOpField (s : State) : (status s).extractLsb' 8 4 = faultOpField s := by
  ext i hi
  simp [status]
  grind

theorem status_spareField (s : State) : (status s).extractLsb' 12 4 = 0 := by
  ext i hi
  simp [status]
  grind

theorem status_afterReset (c : Config) :
    status (State.afterReset c) = if modeBit c.busMode then 0x0080 else 0x0000 := by
  cases h : c.busMode <;> simp [status, State.afterReset, faultOpField, h]

/-- Settles O33, field by field. -/
theorem statusPortLayout : Obligations.StatusPortLayout := by
  intro s
  refine ⟨status_busyBit s, status_readyBit s, status_faultBit s, status_causeField s, status_modeBit s,
    status_faultOpField s, status_spareField s, rfl, rfl, fun c => ?_⟩
  rw [status_afterReset]
  cases c.busMode <;> rfl

/-! The reset edge. -/

/-- A reset edge, forwards. -/
theorem step_resets {s : State} (hc : buildable s.cfg = true) (hr : (currentDraw s).rstN = false) :
    step s = .next (resetEdge (beginCycle s)) := by
  simp [step, cycle, hc, hr]

/-- A reset edge resets the engine, and leaves the module as it was where no command ran and E was low (I8). -/
theorem resetEdge_shape (s : State) : ∃ l, resetEdge s = withLcd l (resetEngine (resetObserved s)) ∧
    (s.busy = false → s.eQ = false → l = s.lcd) := by
  unfold resetEdge
  split
  · next h => exact ⟨_, rfl, fun hb he => by simp [resetDisturbs, hb, he] at h⟩
  · exact ⟨s.lcd, rfl, fun _ _ => rfl⟩

/-- R281: with E low there is no falling edge. -/
theorem resetTransfer_of_low {s : State} (he : s.eQ = false) : resetTransfer s = [] := by
  simp [resetTransfer, he]

/-- R281: at most one transfer, of the old levels or of the reset levels. -/
theorem resetTransfer_cases (s : State) :
    resetTransfer s = [] ∨ resetTransfer s = [⟨s.rsQ, s.dQ⟩] ∨ resetTransfer s = [⟨false, 0⟩] := by
  unfold resetTransfer
  cases s.eQ with
  | false => simp
  | true => cases Config.resetLatch s.freeIdx <;> simp

theorem cmdReady_of_reset {s : State} (hr : (currentDraw s).rstN = false) : cmdReady s = false := by
  simp [cmdReady, hr]

theorem cmdReady_of_idle {s : State} (hr : (currentDraw s).rstN = true) (hb : s.busy = false) (hf : s.fault = false) :
    cmdReady s = true := by
  simp [cmdReady, hr, (idle_iff s).2 ⟨hb, hf⟩]

/-- Settles O32: the registers are those of `resetEngine`, and the transfers grow by `resetTransfer`. -/
theorem resetEdgeGivesResetValues : Obligations.ResetEdgeGivesResetValues := by
  intro s hc hr
  obtain ⟨l, hl, hlcd⟩ := resetEdge_shape (beginCycle s)
  refine ⟨_, step_resets hc hr, ?_⟩
  rw [hl]
  refine ⟨rfl, rfl, rfl, rfl, rfl, rfl, rfl, rfl, rfl, rfl, rfl, rfl, rfl, rfl, rfl, rfl, rfl,
    cmdReady_of_reset hr, fun h => cmdReady_of_idle h rfl rfl, hlcd, fun he => ?_, ?_⟩
  · simp [resetTransfer_of_low (s := beginCycle s) he]
  · obtain h | h | h := resetTransfer_cases (beginCycle s) <;> simp [h]

end Sys2Proof.Machine
end

section
/-! SUPPORT. The transfers of the composite primitives (R79, R176 to R180), and the one micro-op whose cycle makes a
transfer (R70). -/

namespace Sys2Proof.Machine

/-! The nibbles of a byte. -/

/-- R79: the high nibble as a quotient. -/
theorem highNibble_eq (v : Byte) : highNibble v = BitVec.ofNat 8 (v.toNat / 16) := by
  apply BitVec.eq_of_toNat_eq
  have := v.isLt
  simp only [highNibble, BitVec.toNat_ushiftRight, Nat.shiftRight_eq_div_pow, BitVec.toNat_ofNat]
  omega

/-- R79: the low nibble as a remainder. -/
theorem lowNibble_eq (v : Byte) : lowNibble v = BitVec.ofNat 8 (v.toNat % 16) := by
  apply BitVec.eq_of_toNat_eq
  have hmask : v.toNat &&& 15 = v.toNat % 16 := Nat.and_two_pow_sub_one_eq_mod v.toNat 4
  simp only [lowNibble, BitVec.toNat_and, BitVec.toNat_ofNat, Nat.reducePow, Nat.reduceMod, hmask]
  omega

/-- The high nibble has no bits above its four. -/
@[simp] theorem lowNibble_highNibble (v : Byte) : lowNibble (highNibble v) = highNibble v := by
  have := v.isLt
  rw [lowNibble_eq, highNibble_eq, BitVec.toNat_ofNat]
  congr 1
  omega

@[simp] theorem lowNibble_lowNibble (v : Byte) : lowNibble (lowNibble v) = lowNibble v :=
  onDataLines_idem .fourBit v

/-- R172: a nibble reaches the data lines of either mode whole. -/
@[simp] theorem onDataLines_lowNibble (m : BusMode) (v : Byte) : onDataLines m (lowNibble v) = lowNibble v := by
  cases m with
  | fourBit => exact lowNibble_lowNibble v
  | eightBit => rfl

/-! The transfers of the primitives, in front of any further micro-ops. -/

/-- R176: a pulse from a low E makes one transfer, of the levels on the pins. -/
theorem transfersOf_pulse_append (m : BusMode) (rs : Bool) (d : Byte) (rest : List MicroOp) :
    transfersOf m rs false d (pulse ++ rest) = ⟨rs, d⟩ :: transfersOf m rs false d rest := rfl

/-- R177. -/
theorem transfersOf_writeNibble_append (m : BusMode) (rs : Bool) (d v : Byte) (rest : List MicroOp) :
    transfersOf m rs false d (writeNibble v ++ rest) =
      ⟨rs, lowNibble v⟩ :: transfersOf m rs false (lowNibble v) rest := by
  simp [writeNibble, transfersOf, transfersOf_pulse_append]

/-- R178. -/
theorem transfersOf_writeBits_append (m : BusMode) (rs : Bool) (d v : Byte) (rest : List MicroOp) :
    transfersOf m rs false d (writeBits v ++ rest) =
      ⟨rs, onDataLines m v⟩ :: transfersOf m rs false (onDataLines m v) rest := by
  simp [writeBits, transfersOf, transfersOf_pulse_append]

/-- R79, R180: SEND in FOUR_BIT makes the transfers of the high nibble and of the low nibble. -/
theorem transfersOf_send_fourBit_append (rs isData : Bool) (d v : Byte) (rest : List MicroOp) :
    transfersOf .fourBit rs false d (send .fourBit v isData ++ rest) =
      ⟨isData, highNibble v⟩ :: ⟨isData, lowNibble v⟩ :: transfersOf .fourBit isData false (lowNibble v) rest := by
  simp [send, transfersOf, transfersOf_writeNibble_append]

/-- R80, R180: SEND in EIGHT_BIT makes the one transfer of the byte. -/
theorem transfersOf_send_eightBit_append (rs isData : Bool) (d v : Byte) (rest : List MicroOp) :
    transfersOf .eightBit rs false d (send .eightBit v isData ++ rest) =
      ⟨isData, v⟩ :: transfersOf .eightBit isData false v rest := by
  simp [send, transfersOf, transfersOf_writeBits_append, onDataLines]

/-- R180: SEND leaves E low, whatever its level was. -/
theorem send_leaves_E_low (m : BusMode) (v : Byte) (isData e : Bool) :
    (send m v isData).foldl levelE e = false := by
  cases m <;> rfl

/-- The least time of lists run one after the other. -/
theorem minDurationNs_append (d : Delays) (l l' : List MicroOp) :
    minDurationNs d (l ++ l') = minDurationNs d l + minDurationNs d l' := by
  simp [minDurationNs]

/-- R176, R300: a pulse lasts at least its three waits. -/
theorem minDurationNs_pulse (d : Delays) : minDurationNs d pulse = d.eLow + d.eHigh + d.eSettle := by
  simp [minDurationNs, pulse, microMinNs, delayNs, Nat.add_assoc]

/-- R177, R300: the drive of the data lines has no least time. -/
theorem minDurationNs_writeNibble (d : Delays) (v : Byte) : minDurationNs d (writeNibble v) = minDurationNs d pulse := by
  simp [minDurationNs, writeNibble, microMinNs]

/-- R178, R300. -/
theorem minDurationNs_writeBits (d : Delays) (v : Byte) : minDurationNs d (writeBits v) = minDurationNs d pulse := by
  simp [minDurationNs, writeBits, microMinNs]

/-- R180, R300: SEND lasts at least the wait after its drive of RS and its pulses, whatever the value. -/
theorem minDurationNs_send (d : Delays) (m : BusMode) (v : Byte) (isData : Bool) :
    minDurationNs d (send m v isData) =
      d.rs + (match m with | .fourBit => 2 | .eightBit => 1) * (d.eLow + d.eHigh + d.eSettle) := by
  have hrs : minDurationNs d [.drvRS isData, .wait .tRs] = d.rs := by simp [minDurationNs, microMinNs, delayNs]
  cases m <;>
    simp only [send, minDurationNs_append, hrs, minDurationNs_writeNibble, minDurationNs_writeBits,
      minDurationNs_pulse] <;> omega

/-- Settles O43: the transfers of SEND with nothing after it, and its end level and least time. -/
theorem sendTransfers : Obligations.SendTransfers := by
  intro v d rs isData
  have four := transfersOf_send_fourBit_append rs isData d v []
  have eight := transfersOf_send_eightBit_append rs isData d v []
  rw [List.append_nil, transfersOf] at four eight
  rw [highNibble_eq, lowNibble_eq] at four
  exact ⟨four, eight, send_leaves_E_low .fourBit v isData false, send_leaves_E_low .eightBit v isData false,
    minDurationNs_send defaultDelays .fourBit v isData, minDurationNs_send defaultDelays .eightBit v isData⟩

/-! The transfers of a step. -/

/-- A cycle of a wait makes no transfer. -/
@[simp] theorem waitCycle_transfers (t : Delay) (hold : Bool) (s : State) :
    (waitCycle t hold s).transfers = s.transfers := by
  obtain ⟨n, k, tr, he, -⟩ := waitCycle_frame t hold s
  rw [he]

@[simp] theorem fallE_transfers (s : State) : (fallE s).transfers = s.transfers ++ [⟨s.rsQ, s.dQ⟩] := rfl

/-- The acceptance of a command makes no transfer. -/
theorem AcceptShape.transfers_eq {w : CmdWord} {s t : State} (h : AcceptShape w s t) : t.transfers = s.transfers := by
  cases h <;> rfl

/-- A command makes no transfer in the cycle that decodes it, accepted or not. -/
theorem exec_command_transfers {w : CmdWord} {s t : State} (hb : s.busy = false) (hf : s.fault = false)
    (h : exec (decodeCommand w) s = .next t) : t.transfers = s.transfers := by
  obtain ⟨t', ht', hs⟩ := exec_command_shape w hb hf
  rw [h] at ht'
  cases ht'
  exact hs.transfers_eq

/-- R171: `DRV_E(0)` at a high E is the only drive of E that is a falling edge. -/
theorem not_falls_of_fallingEdge {b : Bool} {s : State} (h : fallingEdge b s = false) :
    ¬ (b = false ∧ s.eQ = true) := by
  rintro ⟨rfl, he⟩
  simp [fallingEdge, he] at h

/-- Settles O24, over the ways a step can go: only the falling edge records a transfer. -/
theorem transferExactlyAtFallingEnable : Obligations.TransferExactlyAtFallingEnable := by
  intro s t h hr hp
  obtain ⟨-, hs⟩ := step_shape h
  cases hs with
  | reset hr' => simp [hr] at hr'
  | failsRS b _ _ _ hp' => simp [hp] at hp'
  | failsD v _ _ _ hp' => simp [hp] at hp'
  | failsE b _ _ _ hp' => simp [hp] at hp'
  | completes _ _ hu => simp [hu]
  | waits w _ _ hm => simp [hm]
  | drivesRS b _ _ hm => simp [hm]
  | drivesD v _ _ hm => simp [hm]
  | drivesE b _ _ hm _ he =>
    have hno : ¬ (b = false ∧ s.eQ = true) := not_falls_of_fallingEdge he
    simp [hm, hno]
  | falls l _ hb hm _ he => simp [hb, hm, he]
  | idles _ hb => simp [hb]
  | accepts w t _ hb hf _ ht => simp [hb, exec_command_transfers (s := takeCommand (beginCycle s)) hb hf ht]

end Sys2Proof.Machine
end

section
/-! SUPPORT. The host command word decoded by its OP (R102): the reserved range, and the whole map. -/

namespace Sys2Proof

/-- R102: none of the eight single OP values lies in the second reserved range, so its words reach the last branch. -/
theorem decodeCommand_of_reservedHigh {w : CmdWord} (h : 8 ≤ (opField w).toNat) :
    decodeCommand w = .reserved8F (opField w) (abField w) := by
  have hne : ∀ k : Nibble, k.toNat < 8 → opField w ≠ k := by
    rintro k hk rfl
    omega
  simp [decodeCommand, hne]

/-- Settles O3: a single OP value selects its branch, whose operands are the fields of the word (R101); the values 0x8
to 0xF are left to the last branch. -/
theorem opcodeMapIsComplete : Obligations.OpcodeMapIsComplete := by
  intro op a b
  have reservedHigh (h : 8 ≤ op.toNat) : decodeCommand (commandWord op a b) = .reserved8F op (argWord a b) := by
    simpa using decodeCommand_of_reservedHigh (w := commandWord op a b) (by simpa using h)
  refine ⟨?reserved0, ?lcdBegin, ?clear, ?setCursor, ?printChar, ?printEnd, ?getColumns, ?getRows, reservedHigh⟩
  all_goals
    rintro rfl
    simp [decodeCommand]

end Sys2Proof
end

section
/-! SUPPORT. BEGIN's expansion (R151) as its parts: the bytes it sends as literals (R108, R144 to R149), and the size,
the drives, the least time and the transfers of each part (R153). Every byte goes through SEND, whose size and time do
not depend on the byte. -/

namespace Sys2Proof.Machine

/-! The bytes of BEGIN. -/

/-- R144. -/
theorem emission_initNibble3 (m : BusMode) : emission m .initNibble3 = writeNibble 0x3 := rfl

/-- R145. -/
theorem emission_switchNibble2 (m : BusMode) : emission m .switchNibble2 = writeNibble 0x2 := rfl

/-- R144. -/
theorem emission_initByte30 (m : BusMode) : emission m .initByte30 = writeBits 0x30 := rfl

/-- R147. -/
theorem emission_displayControl (m : BusMode) : emission m .displayControl = send m 0x0C false := rfl

/-- R148. -/
theorem emission_clearDisplay (m : BusMode) : emission m .clearDisplay = send m 0x01 false := rfl

/-- R149. -/
theorem emission_entryMode (m : BusMode) : emission m .entryMode = send m 0x06 false := rfl

/-- R108: `rows` chooses between two function-set bytes of the mode. -/
theorem fset_eightBit (rows : Byte) : fset .eightBit rows = if 1 < rows.toNat then 0x38 else 0x30 := by
  by_cases h : 1 < rows.toNat <;> simp [fset, twoLineFlag, h]

/-- R108: the high nibble of the 4-bit function set does not depend on `rows`. -/
theorem highNibble_fset_fourBit (rows : Byte) : highNibble (fset .fourBit rows) = 0x2 := by
  by_cases h : 1 < rows.toNat <;> simp [highNibble, fset, twoLineFlag, h]

/-- R108: the low nibble of the 4-bit function set is the line count. -/
theorem lowNibble_fset_fourBit (rows : Byte) :
    lowNibble (fset .fourBit rows) = if 1 < rows.toNat then 0x8 else 0x0 := by
  by_cases h : 1 < rows.toNat <;> simp [lowNibble, fset, twoLineFlag, h]

/-- R151: BEGIN is its start, the init phase, and four bytes sent with a wait after each, to the right. -/
theorem beginSeq_eq (m : BusMode) (rows : Byte) : beginSeq m rows =
    .wait .tPowerUp :: .drvRS false :: .drvE false :: (initPhase m ++
      (send m (fset m rows) false ++ .wait .tFset ::
      (send m 0x0C false ++ .wait .tDispCtl ::
      (send m 0x01 false ++ .wait .tClear ::
      (send m 0x06 false ++ [.wait .tEntry, .wait .tReady]))))) := by
  simp [beginSeq, emission_displayControl, emission_clearDisplay, emission_entryMode]

/-! The sizes. -/

theorem length_send (m : BusMode) (v : Byte) (isData : Bool) :
    (send m v isData).length = match m with | .fourBit => 16 | .eightBit => 9 := by
  cases m <;> rfl

theorem length_initPhase (m : BusMode) : (initPhase m).length = match m with | .fourBit => 32 | .eightBit => 24 := by
  cases m <;> rfl

/-- R153: the micro-ops of BEGIN, for every `rows`. -/
theorem length_beginSeq (m : BusMode) (rows : Byte) :
    (beginSeq m rows).length = match m with | .fourBit => 104 | .eightBit => 68 := by
  cases m <;> simp [beginSeq_eq, length_initPhase, length_send]

/-! The drives. -/

/-- R170 to R172: whether a micro-op drives a pin; the others wait. -/
def isDrive : MicroOp → Bool
  | .wait _ => false
  | _ => true

theorem countP_isDrive_send (m : BusMode) (v : Byte) (isData : Bool) :
    (send m v isData).countP isDrive = match m with | .fourBit => 9 | .eightBit => 5 := by
  cases m <;> rfl

theorem countP_isDrive_initPhase (m : BusMode) :
    (initPhase m).countP isDrive = match m with | .fourBit => 16 | .eightBit => 12 := by
  cases m <;> rfl

/-- R153: the drives of BEGIN, for every `rows`. -/
theorem countP_isDrive_beginSeq (m : BusMode) (rows : Byte) :
    (beginSeq m rows).countP isDrive = match m with | .fourBit => 54 | .eightBit => 34 := by
  cases m <;>
    simp [beginSeq_eq, List.countP_cons, countP_isDrive_initPhase, countP_isDrive_send, isDrive]

/-! The least time. -/

theorem minDurationNs_nil (d : Delays) : minDurationNs d [] = 0 := rfl

theorem minDurationNs_cons (d : Delays) (m : MicroOp) (l : List MicroOp) :
    minDurationNs d (m :: l) = microMinNs d m + minDurationNs d l := by
  simp [minDurationNs]

/-- R144, R145, R300: each transfer of the init phase lasts a pulse, and its stated delay is added to it. -/
theorem minDurationNs_initPhase (d : Delays) (m : BusMode) :
    minDurationNs d (initPhase m) = match m with
      | .fourBit => 4 * minDurationNs d pulse + (d.init4a + d.init4b + d.init4c + d.init4Sw)
      | .eightBit => 3 * minDurationNs d pulse + (d.init8a + d.init8b + d.init8c) := by
  cases m <;>
    simp only [initPhase, emission_initNibble3, emission_switchNibble2, emission_initByte30, minDurationNs_append,
      minDurationNs_writeNibble, minDurationNs_writeBits, minDurationNs_cons, minDurationNs_nil, microMinNs, delayNs] <;>
    omega

/-- R151, R300: the least time of BEGIN as that of its parts, for every `rows`. -/
theorem minDurationNs_beginSeq (d : Delays) (m : BusMode) (rows : Byte) :
    minDurationNs d (beginSeq m rows) = d.powerUp + minDurationNs d (initPhase m) +
      4 * minDurationNs d (send m 0 false) + (d.fset + d.dispCtl + d.clear + d.entry + d.ready) := by
  simp only [beginSeq_eq, minDurationNs_append, minDurationNs_cons, minDurationNs_nil, minDurationNs_send, microMinNs,
    delayNs]
  omega

/-- R153: the least time of BEGIN with the default delays. -/
theorem minDurationNs_beginSeq_default (m : BusMode) (rows : Byte) :
    minDurationNs defaultDelays (beginSeq m rows) = match m with | .fourBit => 175848000 | .eightBit => 165828000 := by
  rw [minDurationNs_beginSeq, minDurationNs_initPhase, minDurationNs_send, minDurationNs_pulse]
  cases m <;> rfl

/-! The transfers. -/

/-- R144, R145: the init phase of FOUR_BIT makes four transfers of one nibble each, under the RS it finds. -/
theorem transfersOf_initPhase_fourBit_append (rs : Bool) (d : Byte) (rest : List MicroOp) :
    transfersOf .fourBit rs false d (initPhase .fourBit ++ rest) =
      ⟨rs, 0x3⟩ :: ⟨rs, 0x3⟩ :: ⟨rs, 0x3⟩ :: ⟨rs, 0x2⟩ :: transfersOf .fourBit rs false 0x2 rest := by
  simp [initPhase, emission_initNibble3, emission_switchNibble2, transfersOf, transfersOf_writeNibble_append, lowNibble]

/-- R144: the init phase of EIGHT_BIT makes three transfers of one byte. -/
theorem transfersOf_initPhase_eightBit_append (rs : Bool) (d : Byte) (rest : List MicroOp) :
    transfersOf .eightBit rs false d (initPhase .eightBit ++ rest) =
      ⟨rs, 0x30⟩ :: ⟨rs, 0x30⟩ :: ⟨rs, 0x30⟩ :: transfersOf .eightBit rs false 0x30 rest := by
  simp [initPhase, emission_initByte30, transfersOf, transfersOf_writeBits_append, onDataLines]

/-- R153: FOUR_BIT; after the init phase each byte is a pair of nibbles, high first. -/
theorem transfersOf_beginSeq_fourBit (rs : Bool) (d rows : Byte) :
    transfersOf .fourBit rs false d (beginSeq .fourBit rows) =
      [⟨false, 0x3⟩, ⟨false, 0x3⟩, ⟨false, 0x3⟩, ⟨false, 0x2⟩,
       ⟨false, 0x2⟩, ⟨false, if 1 < rows.toNat then 0x8 else 0x0⟩,
       ⟨false, 0x0⟩, ⟨false, 0xC⟩, ⟨false, 0x0⟩, ⟨false, 0x1⟩, ⟨false, 0x0⟩, ⟨false, 0x6⟩] := by
  simp only [beginSeq_eq, transfersOf, transfersOf_initPhase_fourBit_append, transfersOf_send_fourBit_append,
    highNibble_fset_fourBit, lowNibble_fset_fourBit]
  rfl

/-- R153: EIGHT_BIT; each byte is one transfer. -/
theorem transfersOf_beginSeq_eightBit (rs : Bool) (d rows : Byte) :
    transfersOf .eightBit rs false d (beginSeq .eightBit rows) =
      [⟨false, 0x30⟩, ⟨false, 0x30⟩, ⟨false, 0x30⟩, ⟨false, if 1 < rows.toNat then 0x38 else 0x30⟩,
       ⟨false, 0x0C⟩, ⟨false, 0x01⟩, ⟨false, 0x06⟩] := by
  simp [beginSeq_eq, transfersOf, transfersOf_initPhase_eightBit_append, transfersOf_send_eightBit_append, fset_eightBit]

/-- Settles O42, from the size, the drives, the least time and the transfers of BEGIN's parts. -/
theorem beginTransferList : Obligations.BeginTransferList := by
  intro rows d rs
  exact ⟨length_beginSeq .fourBit rows, length_beginSeq .eightBit rows,
    countP_isDrive_beginSeq .fourBit rows, countP_isDrive_beginSeq .eightBit rows,
    minDurationNs_beginSeq_default .fourBit rows, minDurationNs_beginSeq_default .eightBit rows,
    transfersOf_beginSeq_fourBit rs d rows, transfersOf_beginSeq_eightBit rs d rows⟩

end Sys2Proof.Machine
end

section
/-! SUPPORT. The transmission primitives: the properties of R175 in every expansion, as a property of lists that
appending keeps, and the cycles of a drive (R170 to R172) and of a wait (R173), forwards. -/

namespace Sys2Proof.Machine

/-! R175: the micro-ops around a rising E. -/

/-- R175: position `k` of `l` is the rising edge of a `PULSE` (R176) that stands right after a `DRV_D`. -/
def RisesInStrobe (l : List MicroOp) (k : Nat) : Prop :=
  ∃ before v rest, l = before ++ .drvD v :: (pulse ++ rest) ∧ k = before.length + 3

/-- R175: E rises nowhere but in such a strobe. -/
def Strobed (l : List MicroOp) : Prop := ∀ k, l[k]? = some (.drvE true) → RisesInStrobe l k

theorem RisesInStrobe.append_right {l : List MicroOp} {k : Nat} (h : RisesInStrobe l k) (l' : List MicroOp) :
    RisesInStrobe (l ++ l') k := by
  obtain ⟨before, v, rest, rfl, hk⟩ := h
  exact ⟨before, v, rest ++ l', by simp, hk⟩

theorem RisesInStrobe.append_left {l : List MicroOp} {k : Nat} (h : RisesInStrobe l k) (l' : List MicroOp) :
    RisesInStrobe (l' ++ l) (l'.length + k) := by
  obtain ⟨before, v, rest, rfl, rfl⟩ := h
  exact ⟨l' ++ before, v, rest, by simp, by simp [Nat.add_assoc]⟩

/-- R175 read off the strobe: what stands before and after its rising edge, and that E is low until then. -/
theorem RisesInStrobe.surroundings {l : List MicroOp} {k : Nat} (h : RisesInStrobe l k) :
    3 ≤ k ∧ (∃ v, l[k - 3]? = some (.drvD v)) ∧ l[k - 2]? = some (.drvE false) ∧
      l[k - 1]? = some (.wait .tELow) ∧ l[k + 1]? = some (.wait .tEHigh) ∧ l[k + 2]? = some (.drvE false) ∧
      eAfter (l.take k) = false := by
  obtain ⟨before, v, rest, rfl, rfl⟩ := h
  refine ⟨by omega, ⟨v, ?_⟩, ?_, ?_, ?_, ?_, ?_⟩ <;>
    simp [pulse, Nat.add_assoc, List.take_append, eAfter, levelE]

theorem strobed_nil : Strobed [] := by simp [Strobed]

/-- R175 holds of a list when it holds of its parts: no strobe reaches across their border. -/
theorem Strobed.append {l l' : List MicroOp} (h : Strobed l) (h' : Strobed l') : Strobed (l ++ l') := by
  intro k hk
  rw [List.getElem?_append] at hk
  split at hk
  · exact (h k hk).append_right l'
  · have hrise := (h' _ hk).append_left l
    rwa [Nat.add_sub_cancel' (by omega)] at hrise

/-- A micro-op that is no rising edge is such a part by itself. -/
theorem Strobed.cons {m : MicroOp} {l : List MicroOp} (hm : m ≠ .drvE true) (h : Strobed l) : Strobed (m :: l) := by
  refine Strobed.append (l := [m]) (fun k hk => ?_) h
  obtain ⟨_, rfl⟩ : k = 0 ∧ m = .drvE true := by simpa [List.getElem?_singleton] using hk
  exact absurd rfl hm

/-- R176: the only rising edge of a pulse is its third micro-op. -/
theorem strobed_drvD_pulse (v : Byte) : Strobed (.drvD v :: pulse) := by
  intro k hk
  have hk3 : k = 3 := by
    have hlt : k < 7 := (List.getElem?_eq_some_iff.1 hk).1
    interval_cases k <;> simp [pulse] at hk ⊢
  exact ⟨[], v, [], by simp, hk3⟩

/-! R175 of the composite primitives and of the expansions. -/

theorem strobed_writeNibble (v : Byte) : Strobed (writeNibble v) := strobed_drvD_pulse (lowNibble v)

theorem strobed_writeBits (v : Byte) : Strobed (writeBits v) := strobed_drvD_pulse v

theorem strobed_send (m : BusMode) (v : Byte) (isData : Bool) : Strobed (send m v isData) := by
  refine .cons (by simp) (.cons (by simp) ?_)
  cases m with
  | fourBit => exact (strobed_writeNibble _).append (strobed_writeNibble _)
  | eightBit => exact strobed_writeBits v

theorem strobed_wait (w : Delay) : Strobed [.wait w] := .cons (by simp) strobed_nil

theorem strobed_initPhase (m : BusMode) : Strobed (initPhase m) := by
  have nibble (v : Byte) (w : Delay) : Strobed (writeNibble v ++ [.wait w]) :=
    (strobed_writeNibble v).append (strobed_wait w)
  have bits (v : Byte) (w : Delay) : Strobed (writeBits v ++ [.wait w]) :=
    (strobed_writeBits v).append (strobed_wait w)
  cases m with
  | fourBit => exact (((nibble _ _).append (nibble _ _)).append (nibble _ _)).append (nibble _ _)
  | eightBit => exact ((bits _ _).append (bits _ _)).append (bits _ _)

theorem strobed_beginSeq (m : BusMode) (rows : Byte) : Strobed (beginSeq m rows) := by
  have sent (v : Byte) (w : Delay) {l : List MicroOp} (h : Strobed l) : Strobed (send m v false ++ .wait w :: l) :=
    (strobed_send m v false).append (.cons (by simp) h)
  rw [beginSeq_eq]
  refine .cons (by simp) (.cons (by simp) (.cons (by simp) ((strobed_initPhase m).append ?_)))
  exact sent _ _ (sent _ _ (sent _ _ (sent _ _ (strobed_wait _))))

/-- R244: the expansion of every command that has one. -/
theorem expansionOf_cases {m : BusMode} {rows a b : Byte} {op : Nibble} {l : List MicroOp}
    (h : expansionOf m rows op a b = some l) :
    l = beginSeq m b ∨ l = clearSeq m ∨ (∃ addr, l = setCursorSeq m addr) ∨ l = printCharSeq m b ∨
      l = printEndSeq ∨ l = getterSeq := by
  unfold expansionOf at h
  cases hc : cursorAddr rows a b with
  | error c =>
    simp only [hc] at h
    split_ifs at h <;> cases h <;> simp
  | ok addr =>
    simp only [hc] at h
    split_ifs at h <;> cases h <;> simp

theorem strobed_expansion {m : BusMode} {rows a b : Byte} {op : Nibble} {l : List MicroOp}
    (h : expansionOf m rows op a b = some l) : Strobed l := by
  obtain rfl | rfl | ⟨addr, rfl⟩ | rfl | rfl | rfl := expansionOf_cases h
  · exact strobed_beginSeq m b
  · exact (strobed_send m _ false).append (strobed_wait _)
  · exact strobed_send m _ false
  · exact (strobed_send m _ true).append (strobed_wait _)
  · exact strobed_wait _
  · exact strobed_nil

/-- R175: the init phase leaves RS where BEGIN drove it. -/
theorem drvRS_not_mem_initPhase (m : BusMode) (l : Bool) : .drvRS l ∉ initPhase m := by
  cases m <;>
    simp [initPhase, emission_initNibble3, emission_switchNibble2, emission_initByte30, writeNibble, writeBits, pulse]

/-- Settles O44: every rising edge lies in a strobe, SEND begins as R180 says, and what stands between BEGIN's drive of
RS and its first SEND is `DRV_E(0)` and the init phase. -/
theorem strobeDiscipline : Obligations.StrobeDiscipline := by
  refine ⟨fun m rows a b op l k h hk => (strobed_expansion h k hk).surroundings, fun m v isData => ?_,
    fun m rows => ⟨.drvE false :: initPhase m, _, by simp [beginSeq_eq]; rfl, ?_⟩⟩
  · cases m <;> exact ⟨_, _, rfl⟩
  · simp [drvRS_not_mem_initPhase]

/-! A cycle of a drive. -/

/-- A cycle of a micro-op that runs no instruction, forwards. -/
theorem step_micro_goes {s t : State} {m : MicroOp} (hc : buildable s.cfg = true) (hr : (currentDraw s).rstN = true)
    (hb : s.busy = true) (hm : s.seq[s.upc]? = some m) (hg : runMicro (currentDraw s) m (beginCycle s) = .goes t) :
    step s = .next t := by
  rw [step_micro hc hr hb hm, hg]

/-- R174, R242: a drive at which `pin_err` is 1 raises PIN_DRIVE, whichever pin it drives. -/
theorem step_fails_drive {s : State} {m : MicroOp} (hc : buildable s.cfg = true) (hr : (currentDraw s).rstN = true)
    (hb : s.busy = true) (hm : s.seq[s.upc]? = some m) (hd : isDrive m = true) (hp : (currentDraw s).pinErr = true) :
    ∃ t, step s = .next t ∧ t.fault = true ∧ t.cause = 4 ∧ t.faultOp = s.curOp := by
  cases m with
  | wait w => simp [isDrive] at hd
  | drvRS l => exact ⟨_, step_micro_goes hc hr hb hm (if_pos hp), rfl, rfl, rfl⟩
  | drvD v => exact ⟨_, step_micro_goes hc hr hb hm (if_pos hp), rfl, rfl, rfl⟩
  | drvE l =>
    obtain ⟨b, tr, hf, -⟩ := failE_eq (recordMicro (.drvE l) (beginCycle s))
    refine ⟨_, step_micro_goes hc hr hb hm (if_pos hp), ?_⟩
    rw [hf]
    exact ⟨rfl, rfl, rfl⟩

/-- Settles O21: the cycle is `driveRS`, or the failed drive. -/
theorem driveSelectTakesOneCycle : Obligations.DriveSelectTakesOneCycle := by
  intro s l hc hb hr hm
  refine ⟨fun hp => ?_, step_fails_drive hc hr hb hm rfl⟩
  exact step_micro_goes hc hr hb hm (if_neg (by simp [hp]))

/-- R172: the lines of the mode take their bits, and there is no line above them. -/
theorem getLsbD_onDataLines (m : BusMode) (v : Byte) (k : Nat) :
    (onDataLines m v).getLsbD k = (decide (k < dataLines m) && v.getLsbD k) := by
  by_cases hk : k < 8
  · cases m <;> interval_cases k <;> simp [onDataLines, dataLines]
  · simp [BitVec.getLsbD_of_ge _ k (by omega : 8 ≤ k)]

/-- Settles O22: the cycle is `driveD`, whose lines are those of the mode, or the failed drive. -/
theorem driveDataTakesOneCycle : Obligations.DriveDataTakesOneCycle := by
  intro s v hc hb hr hm
  refine ⟨fun hp => ⟨onDataLines s.cfg.busMode v, ?_, fun k => ?_⟩, step_fails_drive hc hr hb hm rfl⟩
  · exact step_micro_goes hc hr hb hm (if_neg (by simp [hp]))
  · rw [nData_eq hc, getLsbD_onDataLines]

/-- R171 on a falling edge, forwards: the transfer is recorded, and beside it only the module may change. -/
theorem step_falls {s : State} (hc : buildable s.cfg = true) (hr : (currentDraw s).rstN = true)
    (hb : s.busy = true) (hm : s.seq[s.upc]? = some (.drvE false)) (hp : (currentDraw s).pinErr = false)
    (he : s.eQ = true) : ∃ l, step s = .next (withLcd l (fallE (recordMicro (.drvE false) (beginCycle s)))) := by
  have hfall : fallingEdge false (beginCycle s) = true := by simp [fallingEdge, he]
  cases hx : (currentDraw s).lcdMisses with
  | true => exact ⟨s.lcd, step_micro_goes hc hr hb hm (by simp [runMicro, hp, hfall, hx]; rfl)⟩
  | false =>
    obtain ⟨l, hl | ⟨i, l', hi, hn⟩, -⟩ :=
      receive_shape ⟨s.rsQ, s.dQ⟩ (fallE (recordMicro (.drvE false) (beginCycle s)))
    · exact ⟨l, step_micro_goes hc hr hb hm (by simp [runMicro, hp, hfall, hx, hl])⟩
    · exact ⟨l, by rw [step_micro hc hr hb hm]; simp [runMicro, hp, hfall, hx, hi, hn]⟩

/-- R171 with no falling edge, forwards. -/
theorem step_drivesE {s : State} {l : Bool} (hc : buildable s.cfg = true) (hr : (currentDraw s).rstN = true)
    (hb : s.busy = true) (hm : s.seq[s.upc]? = some (.drvE l)) (hp : (currentDraw s).pinErr = false)
    (he : ¬ (s.eQ = true ∧ l = false)) :
    step s = .next (advance (driveE l (recordMicro (.drvE l) (beginCycle s)))) := by
  have hfall : ¬ fallingEdge l (beginCycle s) = true := fun h => he (fallingEdge_eq_true h)
  exact step_micro_goes hc hr hb hm (by simp only [runMicro, hp, hfall, Bool.false_eq_true, if_false])

/-- Settles O23: the cycle falls, or drives E with no transfer, or is the failed drive. -/
theorem driveEnableTakesOneCycle : Obligations.DriveEnableTakesOneCycle := by
  intro s l hc hb hr hm
  refine ⟨fun hp => ?_, step_fails_drive hc hr hb hm rfl⟩
  by_cases he : s.eQ = true ∧ l = false
  · obtain ⟨heq, rfl⟩ := he
    obtain ⟨m, hstep⟩ := step_falls hc hr hb hm hp heq
    refine ⟨m, ?_, fun h => absurd ⟨heq, rfl⟩ h⟩
    rw [hstep, if_pos ⟨heq, rfl⟩]
    rfl
  · refine ⟨s.lcd, ?_, fun _ => rfl⟩
    rw [step_drivesE hc hr hb hm hp he, if_neg he, List.append_nil]
    rfl

/-! The cycles of a wait. -/

theorem calm_mono {k n : Nat} (h : k ≤ n) {ds : List Draw} (hq : Calm n ds) : Calm k ds :=
  fun d hd => hq d ((List.take_sublist_take_left h).subset hd)

/-- R173: the first cycle of a wait that is not held. -/
theorem step_starts_wait {s : State} {w : Delay} (hc : buildable s.cfg = true) (hb : s.busy = true)
    (ht : s.timer = 0) (hm : s.seq[s.upc]? = some (.wait w)) (hq : Calm 1 s.draws) :
    step s = .next (if waitCycles s.cfg w = 1 then advance (recordMicro (.wait w) (beginCycle s))
      else setTimer (waitCycles s.cfg w - 1) (recordMicro (.wait w) (beginCycle s))) := by
  obtain ⟨hr, hh⟩ := calm_head hq
  have hload : firstLoad false (timerLoad (beginCycle s).cfg w) = waitCycles s.cfg w - 1 := timerLoad_eq hc w
  have hpos := waitCycles_pos s.cfg w
  rw [step_micro_goes hc hr hb hm rfl, hh]
  split
  · rw [waitCycle_first_only (s := beginCycle s) ht (by omega)]
  · rw [waitCycle_first_more (s := beginCycle s) ht (by omega), hload]

/-- R173: the first `k + 1` cycles of a wait that lasts longer. -/
theorem runs_into_wait {s : State} {w : Delay} {k : Nat} (hc : buildable s.cfg = true) (hb : s.busy = true)
    (ht : s.timer = 0) (hm : s.seq[s.upc]? = some (.wait w)) (hq : Calm (waitCycles s.cfg w) s.draws)
    (hk : k + 1 < waitCycles s.cfg w) :
    runs (k + 1) s = .next { s with
      now := s.now + (k + 1), draws := s.draws.drop (k + 1), rspValid := false,
      timer := waitCycles s.cfg w - (k + 1), trace := s.trace ++ [⟨.wait w, s.now + 1⟩] } := by
  have hs := step_starts_wait hc hb ht hm (calm_mono (by omega) hq)
  rw [if_neg (by omega)] at hs
  rw [runs_succ_of hs, runs_counting k (setTimer (waitCycles s.cfg w - 1) (recordMicro (.wait w) (beginCycle s))) w
    (waitCycles s.cfg w - (k + 2)) hc hb (by simp; omega) hm (calm_tail (calm_mono (by omega) hq))]
  simp [setTimer, recordMicro, beginCycle]
  omega

/-- R173: a whole wait. -/
theorem runs_wait {s : State} {w : Delay} (hc : buildable s.cfg = true) (hb : s.busy = true)
    (ht : s.timer = 0) (hm : s.seq[s.upc]? = some (.wait w)) (hq : Calm (waitCycles s.cfg w) s.draws) :
    runs (waitCycles s.cfg w) s = .next { s with
      now := s.now + waitCycles s.cfg w, draws := s.draws.drop (waitCycles s.cfg w), rspValid := false,
      upc := s.upc + 1, trace := s.trace ++ [⟨.wait w, s.now + 1⟩] } := by
  have hpos := waitCycles_pos s.cfg w
  have hs := step_starts_wait hc hb ht hm (calm_mono (by omega) hq)
  generalize waitCycles s.cfg w = n at *
  match n with
  | 1 =>
    rw [runs_succ_of hs]
    simp [advance, recordMicro, beginCycle]
  | n + 2 =>
    rw [if_neg (by omega)] at hs
    rw [runs_succ_of hs, runs_count n (setTimer (n + 2 - 1) (recordMicro (.wait w) (beginCycle s))) w hc hb rfl hm
      (calm_tail hq)]
    simp [setTimer, recordMicro, beginCycle, ht]
    omega

/-- Settles O25: the first cycle loads the timer, the others count it down. -/
theorem waitHoldsItsCycles : Obligations.WaitHoldsItsCycles := by
  refine ⟨fun s w hc hb ht hm hq => ⟨rfl, delay_le_waitCycles s.cfg w, fun n hpos hlt => ?_,
    runs_wait hc hb ht hm hq⟩, by decide⟩
  obtain ⟨k, rfl⟩ := Nat.exists_eq_add_of_lt hpos
  simpa [waitCycles] using runs_into_wait hc hb ht hm hq (k := k) (by omega)

end Sys2Proof.Machine
end

section
/-! SUPPORT. The acceptance of SET_CURSOR at an idle engine (R202 to R204): with the uninitialized-use check (R243)
failing and passing, and its own checks as one chain over numbers. -/

namespace Sys2Proof.Machine

/-- R202: the checks of SET_CURSOR in their order, each with the fault it raises, and the byte that is sent when all
pass (R204). -/
theorem startSetCursor_eq (column row : Byte) (s : State) : startSetCursor column row s =
    if s.rows.toNat ≤ row.toNat then raiseFault .rowRange s
    else if 4 ≤ row.toNat then raiseFault .rowTable s
    else if 0xFF < column.toNat + [0x00, 0x40, 0x14, 0x54].getD row.toNat 0 then raiseFault .addrOverflow s
    else startSequence (send s.cfg.busMode
      (0x80 ||| BitVec.ofNat 8 (column.toNat + [0x00, 0x40, 0x14, 0x54].getD row.toNat 0)) false) s := by
  unfold startSetCursor
  rw [cursorAddr_eq]
  split_ifs <;> rfl

/-- R206: while `rows` is 0 no row passes the first check. -/
theorem startSetCursor_of_rows_zero {s : State} (h : s.rows = 0) (column row : Byte) :
    startSetCursor column row s = raiseFault .rowRange s := by
  rw [startSetCursor_eq, if_pos (by simp [h])]

/-- The acceptance of SET_CURSOR touches neither the pins nor what has been observed, whether a check fails or not. -/
theorem startSetCursor_frame (column row : Byte) (s : State) :
    (startSetCursor column row s).transfers = s.transfers ∧ (startSetCursor column row s).trace = s.trace ∧
      (startSetCursor column row s).rsQ = s.rsQ ∧ (startSetCursor column row s).eQ = s.eQ ∧
      (startSetCursor column row s).dQ = s.dQ := by
  unfold startSetCursor
  cases cursorAddr s.rows column row <;> simp

/-- R244: SET_CURSOR at an idle engine is latched and goes through the uninitialized-use check. -/
theorem exec_setCursor_of_idle {s : State} (hb : s.busy = false) (hf : s.fault = false) (column row : Byte) :
    exec (.setCursor column row) s =
      .next (checkUninit (startSetCursor column row) (latchCommand 0x3#4 column row s)) :=
  congrArg Host.Outcome.next (acceptCommand_of_idle hb hf 0x3#4 column row _)

/-- Where the uninitialized-use check does not hold, SET_CURSOR comes to its own checks. -/
theorem exec_setCursor_of_no_trap {s : State} (hb : s.busy = false) (hf : s.fault = false)
    (hn : s.cfg.trapUninit = false ∨ s.initState = .ready) (column row : Byte) :
    exec (.setCursor column row) s = .next (startSetCursor column row (latchCommand 0x3#4 column row s)) := by
  rw [exec_setCursor_of_idle hb hf, checkUninit_of_no_trap (by simpa using hn)]

/-- R243: with the trap, SET_CURSOR in UNINIT is the fault UNINIT_USE, whatever its operands. -/
theorem exec_setCursor_of_trap {s : State} (hb : s.busy = false) (hf : s.fault = false)
    (ht : s.cfg.trapUninit = true) (hu : s.initState = .uninit) (column row : Byte) :
    exec (.setCursor column row) s = .next (raiseFault .uninitUse (latchCommand 0x3#4 column row s)) := by
  have htrap : uninitTrap (latchCommand 0x3#4 column row s) = true := (uninitTrap_iff _).2 ⟨ht, hu, rfl⟩
  rw [exec_setCursor_of_idle hb hf, checkUninit_of_trap htrap]

/-- R206: in an idle engine without a fault that is UNINIT, `rows` is the reset one. -/
theorem Inv.rows_zero {s : State} (hi : Inv s) (hb : s.busy = false) (hf : s.fault = false)
    (hu : s.initState = .uninit) : s.rows = 0 :=
  (hi.geometry hu hf (.inl hb)).1

/-- Settles O9: past the uninitialized-use check the next state is that of SET_CURSOR's chain of checks. -/
theorem setCursorChecksInOrder : Obligations.SetCursorChecksInOrder := by
  intro s column row hb hf hn
  obtain ⟨-, -, -, hdecode, -⟩ := opcodeMapIsComplete 0x3 column row
  obtain ⟨htransfers, htrace, hrs, he, hd⟩ :=
    startSetCursor_frame column row (latchCommand 0x3#4 column row s)
  refine ⟨hdecode rfl, _, exec_setCursor_of_no_trap hb hf hn column row, htransfers, htrace, hrs, he, hd, ?_⟩
  rw [startSetCursor_eq, latchCommand_rows]
  split_ifs
  · exact ⟨rfl, rfl, rfl, rfl⟩
  · exact ⟨rfl, rfl, rfl, rfl⟩
  · exact ⟨rfl, rfl, rfl, rfl⟩
  · exact ⟨hf, rfl, rfl, rfl⟩

/-- Settles O13: the trap raises UNINIT_USE, and without it `rows` is 0, so the first check fails. -/
theorem noCursorBeforeBegin : Obligations.NoCursorBeforeBegin := by
  intro s column row hi hb hf hu
  have hrows : s.rows = 0 := hi.rows_zero hb hf hu
  refine ⟨hrows, ?_⟩
  cases ht : s.cfg.trapUninit with
  | true => exact ⟨_, exec_setCursor_of_trap hb hf ht hu column row, rfl, rfl, rfl, rfl, rfl⟩
  | false =>
    refine ⟨_, exec_setCursor_of_no_trap hb hf (.inl ht) column row, ?_⟩
    rw [startSetCursor_of_rows_zero (by simpa using hrows)]
    exact ⟨rfl, rfl, rfl, rfl, rfl⟩

end Sys2Proof.Machine
end

section
/-! SUPPORT. The causes of a fault (R240) by where they arise: what a faulted acceptance may record (R243, R244), which
steps end in PIN_DRIVE and which expansions can (R242), and the step in the fault state (R249). -/

namespace Sys2Proof.Machine

/-! Faults at acceptance. -/

/-- R240: no two causes share a code. -/
theorem Cause.code_injective : Function.Injective Cause.code := by
  intro c c'
  cases c <;> cases c' <;> decide

theorem displayOp_iff (op : Nibble) : displayOp op = true ↔ op = 0x2#4 ∨ op = 0x3#4 ∨ op = 0x4#4 ∨ op = 0x5#4 := by
  simp [displayOp, or_assoc]

/-- R243: where the uninitialized-use check holds, the acceptance can only be the fault UNINIT_USE. -/
theorem AcceptShape.eq_of_trap {w : CmdWord} {s t : State} (h : AcceptShape w s t) (ht : s.cfg.trapUninit = true)
    (hu : s.initState = .uninit) (ho : displayOp (opField w) = true) : t = raiseFault .uninitUse (latched w s) := by
  cases h with
  | uninit => rfl
  | illegal hop =>
    obtain h0 | h8 := hop
    · simp [h0, displayOp] at ho
    · obtain h | h | h | h := (displayOp_iff _).1 ho <;> simp [h] at h8
  | cursor c _ _ _ hn => exact absurd hu (hn ht)
  | begins hop => simp [hop, displayOp] at ho
  | starts l _ _ hn => exact absurd hu (hn ho ht)

/-- R242, R243, R244: a fault at acceptance is never PIN_DRIVE, and it is UNINIT_USE only where the check holds. -/
theorem AcceptShape.cause_of_fault {w : CmdWord} {s t : State} (h : AcceptShape w s t) (hf : s.fault = false)
    (hft : t.fault = true) : ∃ c : Cause, t.cause = c.code ∧ c ≠ .pinDrive ∧ (c = .uninitUse →
      s.cfg.trapUninit = true ∧ s.initState = .uninit ∧ displayOp (opField w) = true) := by
  cases h with
  | illegal => exact ⟨.illegalOp, rfl, by simp, by simp⟩
  | uninit ht hu ho => exact ⟨.uninitUse, rfl, by simp, fun _ => ⟨ht, hu, ho⟩⟩
  | cursor c hc => exact ⟨c, rfl, by obtain rfl | rfl | rfl := hc <;> simp⟩
  | begins => simp [hf] at hft
  | starts => simp [hf] at hft

/-- Settles O11: what the acceptance of the command can end in, with the check and without it. -/
theorem uninitializedUseIsTrapped : Obligations.UninitializedUseIsTrapped := by
  intro s op a b hb hf
  obtain ⟨t, hexec, hs⟩ := exec_command_shape (commandWord op a b) hb hf
  refine ⟨fun ⟨ht, hu, ho⟩ => ?_, fun hn => ⟨t, hexec, fun hft hcause => ?_⟩⟩
  · rw [hs.eq_of_trap ht hu (by simpa [displayOp_iff] using ho)] at hexec
    exact ⟨_, hexec, rfl, rfl, opField_commandWord op a b, rfl, rfl, rfl, rfl, rfl, rfl, rfl, rfl, rfl, rfl, rfl, rfl⟩
  · obtain ⟨c, hc, -, htrap⟩ := hs.cause_of_fault hf hft
    have huse : c = .uninitUse := Cause.code_injective (hc.symm.trans hcause)
    exact hn (by simpa [displayOp_iff] using htrap huse)

/-! The fault PIN_DRIVE. -/

theorem isDrive_iff (m : MicroOp) : isDrive m = true ↔ ∀ w, m ≠ .wait w := by
  cases m <;> simp [isDrive]

@[simp] theorem waitCycle_fault (t : Delay) (hold : Bool) (s : State) : (waitCycle t hold s).fault = s.fault := by
  obtain ⟨n, k, tr, he, -⟩ := waitCycle_frame t hold s
  rw [he]

@[simp] theorem fallE_fault (s : State) : (fallE s).fault = s.fault := rfl

/-- R242: a step without reset ends in PIN_DRIVE only at a drive whose pin fails. -/
theorem failed_drive_of_pinDrive {s t : State} (h : step s = .next t) (hf : s.fault = false)
    (hr : (currentDraw s).rstN = true) (hft : t.fault = true) (hcause : t.cause = Cause.code .pinDrive) :
    s.busy = true ∧ (currentDraw s).pinErr = true ∧ ∃ m, s.seq[s.upc]? = some m ∧ isDrive m = true := by
  obtain ⟨-, hs⟩ := step_shape h
  cases hs with
  | failsRS b _ hb hm hp => exact ⟨hb, hp, _, hm, rfl⟩
  | failsD v _ hb hm hp => exact ⟨hb, hp, _, hm, rfl⟩
  | failsE b _ hb hm hp => exact ⟨hb, hp, _, hm, rfl⟩
  | accepts w t _ hb _ _ ht =>
    obtain ⟨t', ht', hs⟩ := exec_command_shape w (s := takeCommand (beginCycle s)) hb hf
    obtain rfl : t = t' := Host.Outcome.next.inj (ht.symm.trans ht')
    obtain ⟨c, hc, hne, -⟩ := hs.cause_of_fault hf hft
    exact absurd (Cause.code_injective (hc.symm.trans hcause)) hne
  | reset hr' => simp [hr] at hr'
  | waits => simp [hf] at hft
  | completes => simp [hf] at hft
  | drivesRS => simp [hf] at hft
  | drivesD => simp [hf] at hft
  | drivesE => simp [hf] at hft
  | falls => simp [hf] at hft
  | idles => simp [hf] at hft

theorem any_isDrive_send (m : BusMode) (v : Byte) (isData : Bool) : (send m v isData).any isDrive = true := by
  simp [send, isDrive]

theorem any_isDrive_beginSeq (m : BusMode) (rows : Byte) : (beginSeq m rows).any isDrive = true := by
  simp [beginSeq_eq, isDrive]

/-- R242: the expansions that hold a drive are those that use the bus. -/
theorem any_isDrive_expansion {m : BusMode} {rows a b : Byte} {op : Nibble} {l : List MicroOp}
    (h : expansionOf m rows op a b = some l) :
    l.any isDrive = true ↔ op = 0x1#4 ∨ op = 0x2#4 ∨ op = 0x3#4 ∨ op = 0x4#4 := by
  unfold expansionOf at h
  split at h
  · cases h
    simp [any_isDrive_beginSeq, *]
  split at h
  · cases h
    simp [clearSeq, emission_clearDisplay, any_isDrive_send, *]
  split at h
  · cases hc : cursorAddr rows a b with
    | error c => simp [hc] at h
    | ok addr =>
      obtain rfl : setCursorSeq m addr = l := by simpa [hc] using h
      simp [setCursorSeq, any_isDrive_send, *]
  split at h
  · cases h
    simp [printCharSeq, emission, any_isDrive_send, *]
  · split_ifs at h <;> cases h <;> simp [printEndSeq, getterSeq, isDrive, *]

/-- Settles O29: a failed drive raises PIN_DRIVE whichever pin it drives, and no other step does; and SEND and BEGIN
drive, where the waits of PRINT_END and the getters do not. -/
theorem pinDriveFaultExactlyAtFailedDrive : Obligations.PinDriveFaultExactlyAtFailedDrive := by
  refine ⟨fun s t h hf hr => ?_, fun m rows a b op l hl => ?_⟩
  · simp only [← isDrive_iff]
    refine ⟨fun ⟨hft, hcause⟩ => failed_drive_of_pinDrive h hf hr hft hcause, fun ⟨hb, hp, m, hm, hd⟩ => ?_⟩
    obtain ⟨t', ht', hft, hcause, -⟩ := step_fails_drive (step_shape h).1 hr hb hm hd hp
    obtain rfl : t = t' := Host.Outcome.next.inj (h.symm.trans ht')
    exact ⟨hft, hcause⟩
  · simp only [← isDrive_iff]
    rw [← List.any_eq_true, any_isDrive_expansion hl]

/-! The fault state. -/

/-- A cycle with nothing to do, forwards. -/
theorem step_idles {s : State} (hc : buildable s.cfg = true) (hr : (currentDraw s).rstN = true) (hb : s.busy = false)
    (hn : s.fault = true ∨ presented s = none) : step s = .next (beginCycle s) := by
  obtain hf | hw := hn
  · cases hw : presented s <;> simp [step, cycle, hc, hr, hb, hw, idleCycle, idle, hf]
  · simp [step, cycle, hc, hr, hb, hw, idleCycle]

/-- Settles O31: the fault state idles, and a reset edge puts its registers to 0. -/
theorem faultStateIsSticky : Obligations.FaultStateIsSticky := by
  intro s hc hf hb
  refine ⟨fun hr => ⟨s.rspData, s.rspErr, step_idles hc hr hb (.inl hf)⟩, fun hr => ?_⟩
  obtain ⟨l, hl, -⟩ := resetEdge_shape (beginCycle s)
  exact ⟨_, step_resets hc hr, by rw [hl]; exact ⟨rfl, rfl, rfl⟩⟩

end Sys2Proof.Machine
end

section
/-! SUPPORT. Construction and its refusals (R282): a build that elaboration refuses has no engine and no step. -/

namespace Sys2Proof.Machine

/-- R282: parameters whose data lines are not those of the mode are no engine's. -/
theorem buildable_eq_false_of_nData_ne {c : Config} (h : c.nData ≠ dataLines c.busMode) : buildable c = false :=
  Bool.eq_false_iff.2 fun hb => h (nData_eq hb)

/-- R282: with refused parameters there is no engine, acquired lines or not. -/
theorem elaborate_of_not_buildable {c : Config} (h : buildable c = false) (acquired : Bool) :
    elaborate acquired c = none := by
  simp [elaborate, h]

/-- R280, R282: with the parameters of an engine and its lines, construction gives the reset state. -/
theorem elaborate_of_buildable {c : Config} (h : buildable c = true) :
    elaborate true c = some (State.afterReset c) := by
  simp [elaborate, h]

/-- R282: no such engine exists, so it has no step. -/
theorem step_of_not_buildable {s : State} (h : buildable s.cfg = false) : step s = .refused .notBuilt := by
  simp [step, cycle, h]

/-- R9: the two ways in which the data-line count does not match the mode. -/
theorem nData_ne_dataLines_iff (c : Config) :
    c.nData ≠ dataLines c.busMode ↔
      (c.busMode = .fourBit ∧ c.nData ≠ 4) ∨ (c.busMode = .eightBit ∧ c.nData ≠ 8) := by
  cases c.busMode <;> simp [dataLines]

/-- Settles O48: a mismatch of the lines makes the build refused, and construction and the step refuse it then. -/
theorem mismatchedLinesAreRefused : Obligations.MismatchedLinesAreRefused := by
  refine fun c => ⟨fun hmismatch => ?_, elaborate_of_buildable, rfl⟩
  have hbuild : buildable c = false := buildable_eq_false_of_nData_ne ((nData_ne_dataLines_iff c).2 hmismatch)
  exact ⟨elaborate_of_not_buildable hbuild true, fun s hs => step_of_not_buildable (hs ▸ hbuild)⟩

end Sys2Proof.Machine
end

section
/-! SUPPORT. The clock edges of the commands (R183, R301): the cycles of a list are its drives and its waits, and at 1 MHz
with the default delays, which are whole microseconds, its waits take one cycle a microsecond of its least time. So the
drives and the least time of an expansion give its edges. -/

namespace Sys2Proof.Machine

/-! The cycles as drives and waits. -/

/-- R183: the cycles of a micro-op that waits; the others drive. -/
def waitCycles? (c : Config) : MicroOp → Option Nat
  | .wait w => some (waitCycles c w)
  | _ => none

/-- R183: a drive takes one cycle. -/
theorem sequenceCycles_eq_drives_add_waits (c : Config) (l : List MicroOp) :
    sequenceCycles c l = l.countP isDrive + (l.filterMap (waitCycles? c)).sum := by
  induction l with
  | nil => rfl
  | cons m l ih =>
    rw [sequenceCycles_cons, ih]
    cases m <;> simp [List.countP_cons, List.filterMap_cons, microCycles, isDrive, waitCycles?] <;> omega

/-- R183: `N = 1 + k + sum max(1, cyc(Wi))`. -/
theorem responseEdges_eq_drives_add_waits (c : Config) (l : List MicroOp) :
    responseEdges c l = 1 + l.countP isDrive + (l.filterMap (waitCycles? c)).sum := by
  rw [responseEdges, sequenceCycles_eq_drives_add_waits, Nat.add_assoc]

/-- R301: at 1 MHz a default delay is a whole number of cycles. -/
theorem waitCycles_default {c : Config} (hclock : c.fClkHz = 1000000) (hdelays : c.delays = defaultDelays) (w : Delay) :
    1000 * waitCycles c w = delayNs defaultDelays w := by
  rw [waitCycles, cyc, hclock, hdelays]
  cases w <;> rfl

/-- R301: at 1 MHz a drive takes one cycle, and a wait one cycle a microsecond. -/
theorem microCycles_default {c : Config} (hclock : c.fClkHz = 1000000) (hdelays : c.delays = defaultDelays)
    (m : MicroOp) :
    1000 * microCycles c m = 1000 * (if isDrive m then 1 else 0) + microMinNs defaultDelays m := by
  cases m with
  | wait w => simpa [microCycles, microMinNs, isDrive] using waitCycles_default hclock hdelays w
  | _ => rfl

/-- R301: at 1 MHz the cycles of a list, in nanoseconds, are those of its drives and its least time. -/
theorem sequenceCycles_default {c : Config} (hclock : c.fClkHz = 1000000) (hdelays : c.delays = defaultDelays)
    (l : List MicroOp) :
    1000 * sequenceCycles c l = 1000 * l.countP isDrive + minDurationNs defaultDelays l := by
  induction l with
  | nil => rfl
  | cons m l ih =>
    have := microCycles_default hclock hdelays m
    rw [sequenceCycles_cons, minDurationNs_cons, List.countP_cons]
    omega

/-- R301: the edges of a list at 1 MHz, from its drives and its least time. -/
theorem responseEdges_default {c : Config} (hclock : c.fClkHz = 1000000) (hdelays : c.delays = defaultDelays)
    {l : List MicroOp} {drives ns : Nat} (hdrives : l.countP isDrive = drives)
    (hns : minDurationNs defaultDelays l = ns) : responseEdges c l = 1 + drives + ns / 1000 := by
  have := sequenceCycles_default hclock hdelays l
  unfold responseEdges
  omega

/-! A byte sent with a wait after it. -/

theorem countP_isDrive_send_wait (m : BusMode) (v : Byte) (isData : Bool) (w : Delay) :
    (send m v isData ++ [MicroOp.wait w]).countP isDrive = match m with | .fourBit => 9 | .eightBit => 5 := by
  rw [List.countP_append, countP_isDrive_send]
  rfl

/-- R300: the least time of SEND with the default delays. -/
theorem minDurationNs_send_default (m : BusMode) (v : Byte) (isData : Bool) :
    minDurationNs defaultDelays (send m v isData) = match m with | .fourBit => 2108000 | .eightBit => 1104000 := by
  rw [minDurationNs_send]
  cases m <;> rfl

theorem minDurationNs_send_wait_default (m : BusMode) (v : Byte) (isData : Bool) (w : Delay) :
    minDurationNs defaultDelays (send m v isData ++ [.wait w]) =
      (match m with | .fourBit => 2108000 | .eightBit => 1104000) + delayNs defaultDelays w := by
  rw [minDurationNs_append, minDurationNs_send_default]
  rfl

/-! The commands: the drives and the least time of each. -/

/-- R200. -/
theorem countP_isDrive_clearSeq (m : BusMode) :
    (clearSeq m).countP isDrive = match m with | .fourBit => 9 | .eightBit => 5 :=
  countP_isDrive_send_wait m 0x01 false .tClear

/-- R200, R300. -/
theorem minDurationNs_clearSeq_default (m : BusMode) :
    minDurationNs defaultDelays (clearSeq m) = match m with | .fourBit => 4108000 | .eightBit => 3104000 := by
  rw [clearSeq, emission_clearDisplay, minDurationNs_send_wait_default]
  cases m <;> rfl

/-- R204. -/
theorem countP_isDrive_setCursorSeq (m : BusMode) (addr : Byte) :
    (setCursorSeq m addr).countP isDrive = match m with | .fourBit => 9 | .eightBit => 5 :=
  countP_isDrive_send m (setDdramByte addr) false

/-- R204, R300. -/
theorem minDurationNs_setCursorSeq_default (m : BusMode) (addr : Byte) :
    minDurationNs defaultDelays (setCursorSeq m addr) = match m with | .fourBit => 2108000 | .eightBit => 1104000 :=
  minDurationNs_send_default m (setDdramByte addr) false

/-- R207: PRINT_CHAR sends a data byte and waits. -/
theorem printCharSeq_eq (m : BusMode) (ch : Byte) :
    printCharSeq m ch = send m (busValue (encode (.writeData ch))) true ++ [.wait .tChar] := rfl

/-- R207. -/
theorem countP_isDrive_printCharSeq (m : BusMode) (ch : Byte) :
    (printCharSeq m ch).countP isDrive = match m with | .fourBit => 9 | .eightBit => 5 := by
  rw [printCharSeq_eq, countP_isDrive_send_wait]

/-- R207, R300. -/
theorem minDurationNs_printCharSeq_default (m : BusMode) (ch : Byte) :
    minDurationNs defaultDelays (printCharSeq m ch) = match m with | .fourBit => 2258000 | .eightBit => 1254000 := by
  rw [printCharSeq_eq, minDurationNs_send_wait_default]
  cases m <;> rfl

/-- Settles O45: the edges of each command from its drives and its least time. -/
theorem cycleCountsOfTheCommands : Obligations.CycleCountsOfTheCommands := by
  intro c rows addr ch hclock hdelays
  have edges {l drives ns} := responseEdges_default hclock hdelays (l := l) (drives := drives) (ns := ns)
  rw [hdelays]
  exact ⟨responseEdges_eq_drives_add_waits c,
    edges (countP_isDrive_beginSeq .fourBit rows) (minDurationNs_beginSeq_default .fourBit rows),
    edges (countP_isDrive_beginSeq .eightBit rows) (minDurationNs_beginSeq_default .eightBit rows),
    edges (countP_isDrive_clearSeq .fourBit) (minDurationNs_clearSeq_default .fourBit),
    edges (countP_isDrive_clearSeq .eightBit) (minDurationNs_clearSeq_default .eightBit),
    edges (countP_isDrive_setCursorSeq .fourBit addr) (minDurationNs_setCursorSeq_default .fourBit addr),
    edges (countP_isDrive_setCursorSeq .eightBit addr) (minDurationNs_setCursorSeq_default .eightBit addr),
    edges (countP_isDrive_printCharSeq .fourBit ch) (minDurationNs_printCharSeq_default .fourBit ch),
    edges (countP_isDrive_printCharSeq .eightBit ch) (minDurationNs_printCharSeq_default .eightBit ch),
    edges (l := printEndSeq) rfl rfl, edges (l := getterSeq) rfl rfl,
    minDurationNs_clearSeq_default .fourBit, minDurationNs_clearSeq_default .eightBit,
    minDurationNs_setCursorSeq_default .fourBit addr, minDurationNs_setCursorSeq_default .eightBit addr,
    minDurationNs_printCharSeq_default .fourBit ch, minDurationNs_printCharSeq_default .eightBit ch, rfl, rfl⟩

end Sys2Proof.Machine
end

section
/-! SUPPORT. Two cycles of the step for the statements below: the acceptance of a command as one of the ways it can end
(R244), and the cycle that drops E with its transfer taken by the module (R70, R171). -/

namespace Sys2Proof.Machine

/-- An acceptance at an idle engine ends in one of the ways of `AcceptShape`. -/
theorem acceptShape_of_exec {w : CmdWord} {s t : State} (h : exec (decodeCommand w) s = .next t)
    (hb : s.busy = false) (hf : s.fault = false) : AcceptShape w s t := by
  obtain ⟨t', ht', hs⟩ := exec_command_shape w hb hf
  obtain rfl : t = t' := Host.Outcome.next.inj (h.symm.trans ht')
  exact hs

/-- R70, R171: the engine's part of a cycle that drops E, written out. -/
theorem fallE_beginCycle (s : State) : fallE (recordMicro (.drvE false) (beginCycle s)) = { s with
    now := s.now + 1, draws := s.draws.tail, rspValid := false, eQ := false, upc := s.upc + 1,
    trace := s.trace ++ [⟨.drvE false, s.now + 1⟩], transfers := s.transfers ++ [⟨s.rsQ, s.dQ⟩] } := by
  simp only [fallE, advance, driveE, recordTransfer, recordMicro, beginCycle]

/-- R70, R171: where the drive does not fail and the transfer is not lost, the module takes it. -/
theorem runMicro_falls {s : State} (hp : (currentDraw s).pinErr = false) (hx : (currentDraw s).lcdMisses = false)
    (he : s.eQ = true) : runMicro (currentDraw s) (.drvE false) (beginCycle s) =
      receive ⟨s.rsQ, s.dQ⟩ (fallE (recordMicro (.drvE false) (beginCycle s))) := by
  simp [runMicro, hp, hx, fallingEdge, he]

end Sys2Proof.Machine
end

section
/-! SUPPORT. The decoder and the encoder as inverses of each other: on host commands, lone nibbles and bus bytes. -/

namespace Sys2Proof

/-! The set-DDRAM-address word. -/

/-- R204: the opcode bit stands in every set-DDRAM-address word. -/
theorem busWord_opcodeBit (v : Byte) : (busWord false (0x80#8 ||| v)).getLsbD 7 = true := by simp [busWord]

/-- R204: the low seven bits of the set-DDRAM-address byte are the address. -/
theorem busWord_ddramAddr (a : DdramAddr) :
    (busWord false (0x80#8 ||| a.setWidth 8)).extractLsb' 0 7 = a := by
  revert a
  decide

/-- R204: the opcode bit with the low seven bits, back. -/
theorem busWord_of_ddramAddr {w : ByteWord} (h8 : w.getLsbD 8 = false) (h7 : w.getLsbD 7 = true) :
    busWord false (0x80#8 ||| (w.extractLsb' 0 7).setWidth 8) = w := by
  revert w
  decide

/-- R109, R204: under the opcode bit any byte decodes as an address. -/
theorem decodeByte_opcodeBit (p : Bool) (v : Byte) : decodeByte p (busWord false (0x80#8 ||| v)) =
    .ok (.setDdramAddr ((busWord false (0x80#8 ||| v)).extractLsb' 0 7)) := by
  have hrs : ¬ (busWord false (0x80#8 ||| v)).getLsbD 8 = true := by
    rw [busWord_rs]
    decide
  rw [decodeByte, if_neg hrs, if_pos (busWord_opcodeBit v)]

/-- R204: the address of a set-DDRAM-address word. -/
theorem decodeByte_setDdramAddr (p : Bool) (a : DdramAddr) :
    decodeByte p (busWord false (0x80#8 ||| a.setWidth 8)) = .ok (.setDdramAddr a) := by
  rw [decodeByte_opcodeBit, busWord_ddramAddr]

/-- R207: a word with RS high is a character byte, whatever its value. -/
theorem decodeByte_writeData (p : Bool) (ch : Byte) : decodeByte p (busWord true ch) = .ok (.writeData ch) := by
  simp [decodeByte]

/-- Settles O1, constructor by constructor: a host command by its fields, a bus word by its RS level and its value. -/
theorem encodedInstructionDecodesBack : Obligations.EncodedInstructionDecodesBack := by
  intro i hi
  cases i with
  | lcdBegin | clear | setCursor | printChar | printEnd | getColumns | getRows | reserved0 =>
    simp [encode, decode, decodeCommand]
  | reserved8F op ab =>
    have hop : 8 ≤ op.toNat := by simpa [Instr.wellFormed, reservedHighOp] using hi
    simp [encode, decode, decodeCommand_of_reservedHigh (w := commandWord16 op ab) (by simpa using hop)]
  | setDdramAddr a => exact decodeByte_setDdramAddr _ a
  | writeData ch => exact decodeByte_writeData _ ch
  | initNibble3 | switchNibble2 | initByte30 | fset4Bit1Line | fset4Bit2Line | fset8Bit1Line | fset8Bit2Line
  | displayControl | clearDisplay | entryMode => rfl

/-- R100, R102: a command word is put together again from its OP and its operand fields. -/
theorem encode_decodeCommand (w : CmdWord) :
    encode (decodeCommand w) = .host w ∧ (decodeCommand w).wellFormed = true := by
  have two {op : Nibble} (h : opField w = op) : commandWord op (aField w) (bField w) = w := h ▸ commandWord_fields w
  have one {op : Nibble} (h : opField w = op) : commandWord16 op (abField w) = w := h ▸ commandWord16_fields w
  unfold decodeCommand
  simp only []
  split_ifs with h0 h1 h2 h3 h4 h5 h6 h7
  · exact ⟨congrArg Code.host (one h0), rfl⟩
  · exact ⟨congrArg Code.host (two h1), rfl⟩
  · exact ⟨congrArg Code.host (one h2), rfl⟩
  · exact ⟨congrArg Code.host (two h3), rfl⟩
  · exact ⟨congrArg Code.host (two h4), rfl⟩
  · exact ⟨congrArg Code.host (one h5), rfl⟩
  · exact ⟨congrArg Code.host (one h6), rfl⟩
  · exact ⟨congrArg Code.host (one h7), rfl⟩
  · exact ⟨congrArg Code.host (one rfl),
      decide_eq_true (Machine.reservedHigh_of_ne (opField w) h0 h1 h2 h3 h4 h5 h6 h7)⟩

/-- R107: a lone nibble that decodes is one of the two of the table. -/
theorem encode_of_decodeNibble {w : NibbleWord} {i : Instr} (h : decodeNibble w = .ok i) :
    encode i = .nibble w ∧ i.wellFormed = true := by
  unfold decodeNibble at h
  split_ifs at h with h3 h2 <;> cases h
  · exact ⟨congrArg Code.nibble h3.symm, rfl⟩
  · exact ⟨congrArg Code.nibble h2.symm, rfl⟩

/-- R107: a bus byte that decodes is a character, an address, or one of the fixed bytes. -/
theorem encode_of_decodeByte {p : Bool} {w : ByteWord} {i : Instr} (h : decodeByte p w = .ok i) :
    encode i = .byte w ∧ i.wellFormed = true := by
  unfold decodeByte at h
  split_ifs at h with h8 h7 h20 h28 h30 hp h38 h0C h01 h06 <;> cases h
  · exact ⟨congrArg Code.byte (h8 ▸ busWord_fields w), rfl⟩
  · exact ⟨congrArg Code.byte (busWord_of_ddramAddr (by simpa using h8) h7), rfl⟩
  all_goals
    subst w
    exact ⟨rfl, rfl⟩

/-- Settles O2, format by format. -/
theorem decodedWordEncodesBack : Obligations.DecodedWordEncodesBack := by
  intro p c i h
  cases c with
  | host w =>
    cases h
    exact encode_decodeCommand w
  | nibble w => exact encode_of_decodeNibble h
  | byte w => exact encode_of_decodeByte h

/-- Settles O4: each word is a number, which the decoder reads. -/
theorem writtenOutWordsDecode : Obligations.WrittenOutWordsDecode := by
  unfold Obligations.WrittenOutWordsDecode
  decide

end Sys2Proof
end

section
/-! SUPPORT. The invariant `Inv`: what each operation of the step does to it, and from these that every step keeps it,
that reset gives it, and that a state that meets it has a next state. -/

namespace Sys2Proof.Machine

/-! The expansions: R142 and the bound of R153. -/

/-- R142, R176: every expansion leaves E low. -/
theorem eAfter_of_expansionOf {m : BusMode} {rows a b : Byte} {op : Nibble} {l : List MicroOp}
    (h : expansionOf m rows op a b = some l) : eAfter l = false := by
  obtain rfl | rfl | ⟨addr, rfl⟩ | rfl | rfl | rfl := expansionOf_cases h
  · simp [beginSeq_eq, eAfter, send_leaves_E_low, levelE]
  · simp [clearSeq, emission_clearDisplay, eAfter, send_leaves_E_low, levelE]
  · exact send_leaves_E_low m _ _ _
  · simp [printCharSeq_eq, eAfter, send_leaves_E_low, levelE]
  · rfl
  · rfl

/-- R153: no expansion is longer than that of BEGIN in FOUR_BIT. -/
theorem length_expansionOf_le {m : BusMode} {rows a b : Byte} {op : Nibble} {l : List MicroOp}
    (h : expansionOf m rows op a b = some l) : l.length ≤ 104 := by
  have hsend (v : Byte) (isData : Bool) : (send m v isData).length ≤ 16 := by
    rw [length_send]
    cases m <;> decide
  have hsendWait (v : Byte) (isData : Bool) (w : Delay) : (send m v isData ++ [MicroOp.wait w]).length ≤ 104 := by
    have := hsend v isData
    rw [List.length_append, List.length_singleton]
    omega
  obtain rfl | rfl | ⟨addr, rfl⟩ | rfl | rfl | rfl := expansionOf_cases h
  · rw [length_beginSeq]
    cases m <;> decide
  · exact hsendWait 0x01 false .tClear
  · exact (hsend _ _).trans (by decide)
  · exact hsendWait _ true .tChar
  · decide
  · decide

/-- E after one more micro-op of a list. -/
theorem eAfter_take_succ {l : List MicroOp} {k : Nat} {m : MicroOp} (h : l[k]? = some m) :
    eAfter (l.take (k + 1)) = levelE (eAfter (l.take k)) m := by
  rw [List.take_add_one, h]
  simp [eAfter]

/-! What the operations do to the invariant. Each proof names the parts that its operation touches. -/

theorem timerRange_pos (c : Config) : 0 < 2 ^ c.timerW := Nat.two_pow_pos _

/-- The parts that speak of the module hold of any good module. -/
theorem Inv.withLcd {s : State} (hi : Inv s) {l : Lcd} (hl : LcdGood l) : Inv (withLcd l s) := { hi with lcd := hl }

theorem Inv.beginCycle {s : State} (hi : Inv s) : Inv (beginCycle s) := { hi with response := by simp [ResponseOk] }

/-- R35: outside a wait the timer is 0. -/
theorem Inv.timer_eq_zero {s : State} (hi : Inv s) (h : s.busy = true → ∀ w, s.seq[s.upc]? ≠ some (.wait w)) :
    s.timer = 0 := by
  by_contra h0
  obtain ⟨hb, w, hw⟩ := hi.timer.2 h0
  exact h hb w hw

/-- R240: the codes of the causes are 1 to 6. -/
theorem Cause.code_le_six (c : Cause) : c.code.toNat ≤ 6 := by cases c <;> decide

theorem Cause.code_ne_zero (c : Cause) : c.code ≠ 0#4 := by cases c <;> decide

/-- A faulted engine meets the invariant whatever its command was: nothing runs in it. -/
theorem inv_raiseFault {s : State} (hc : buildable s.cfg = true) (hp : PinsOk s) (hl : LcdOk s) (c : Cause) :
    Inv (raiseFault c s) where
  built := hc
  sequencer := ⟨Nat.zero_le _, Nat.zero_le _, by simp⟩
  enable := ⟨by simp, by simp⟩
  timer := ⟨timerRange_pos s.cfg, by simp⟩
  fault := ⟨by simp, c.code_le_six, by simp [c.code_ne_zero], by simp⟩
  pins := hp
  geometry := by simp [GeometryOk]
  response := by simp [ResponseOk]
  lcd := hl

/-- R44: the reset values meet the invariant. -/
theorem inv_resetEngine {s : State} (hc : buildable s.cfg = true) (hl : LcdOk s) : Inv (resetEngine s) where
  built := hc
  sequencer := ⟨Nat.zero_le _, Nat.zero_le _, by simp⟩
  enable := ⟨by simp, by simp⟩
  timer := ⟨timerRange_pos s.cfg, by simp⟩
  fault := ⟨by simp, by simp, by simp, by simp⟩
  pins := by cases h : s.cfg.busMode <;> simp [PinsOk, onDataLines, h]
  geometry := by simp [GeometryOk]
  response := by simp [ResponseOk]
  lcd := hl

theorem Inv.resetEdge {s : State} (hi : Inv s) : Inv (resetEdge s) := by
  have hreset : Inv (resetEngine (resetObserved s)) := inv_resetEngine hi.built hi.lcd
  unfold Machine.resetEdge
  split
  · exact hreset.withLcd (anyLcd_good (Nat.zero_le 3) _)
  · exact hreset

/-- R34: after a micro-op that succeeds E is where it left it, and the timer has run out. -/
theorem Inv.microDone {s : State} {m : MicroOp} (hi : Inv s) (hb : s.busy = true) (hm : s.seq[s.upc]? = some m) :
    Inv (advance (setTimer 0 (driveE (levelE s.eQ m) s))) where
  built := hi.built
  sequencer := ⟨(List.getElem?_eq_some_iff.1 hm).1, hi.sequencer.2⟩
  enable := by
    refine ⟨fun _ => ?_, by simp [hb]⟩
    simp [eAfter_take_succ hm, hi.enable.1 hb]
  timer := ⟨timerRange_pos s.cfg, by simp⟩
  fault := hi.fault
  pins := hi.pins
  geometry := hi.geometry
  response := hi.response
  lcd := hi.lcd

/-- R170 to R172: a drive that succeeds; the timer was 0 before it too. -/
theorem Inv.driveDone {s : State} {m : MicroOp} (hi : Inv s) (hb : s.busy = true) (hm : s.seq[s.upc]? = some m)
    (hd : isDrive m = true) : Inv (advance (driveE (levelE s.eQ m) s)) := by
  have ht : s.timer = 0 := hi.timer_eq_zero fun _ w hw => by
    rw [hm, Option.some.injEq] at hw
    simp [hw, isDrive] at hd
  have h := hi.microDone hb hm
  rwa [show setTimer 0 (driveE (levelE s.eQ m) s) = driveE (levelE s.eQ m) s by rw [← ht]; rfl] at h

/-- R35, R173: a cycle of a wait keeps the timer within its register, and leaves it at 0 when it ends. -/
theorem Inv.waitCycle {s : State} {w : Delay} (hi : Inv s) (hb : s.busy = true) (hm : s.seq[s.upc]? = some (.wait w))
    (hold : Bool) : Inv (waitCycle w hold s) := by
  obtain ⟨n, k, tr, he, hk, hn, -⟩ := waitCycle_frame w hold s
  rw [he]
  have hfits : n < 2 ^ s.cfg.timerW := by
    have := timerRange_pos s.cfg
    have := hi.timer.1
    have := firstLoad_lt hi.built hold w
    omega
  obtain rfl | ⟨rfl, rfl⟩ := hk
  · exact { hi with timer := ⟨hfits, fun _ => ⟨hb, w, hm⟩⟩ }
  · exact { hi.microDone hb hm with }

/-- R34, R142, R152: completion ends an expansion, which leaves E low. -/
theorem Inv.completeCommand {s : State} (hi : Inv s) (hb : s.busy = true) (hu : s.upc = s.seq.length) :
    Inv (completeCommand s) where
  built := hi.built
  sequencer := ⟨hi.sequencer.1, hi.sequencer.2.1, by simp⟩
  enable := by
    refine ⟨by simp, fun _ _ => ?_⟩
    rw [completeCommand_eQ, hi.enable.1 hb, hu, List.take_length]
    exact eAfter_of_expansionOf (hi.sequencer.2.2 hb)
  timer := ⟨hi.timer.1, fun h0 => absurd (hi.timer_eq_zero fun _ w hw => by simp [hu] at hw) h0⟩
  fault := ⟨by simp, hi.fault.2⟩
  pins := hi.pins
  geometry := by
    intro hinit hf _
    have hop : s.curOp ≠ 0x1#4 := by
      intro h
      simp [initAfter, h] at hinit
    exact hi.geometry (by simpa [initAfter, hop] using hinit) hf (.inr hop)
  response := by simp [ResponseOk]
  lcd := hi.lcd

/-- R34, R244: an expansion starts at an idle engine, under the geometry `columns`, `rows`: for BEGIN any, since R206
says nothing once a BEGIN has been accepted, and for every other command the one there was. -/
theorem Inv.startSequence {s : State} {l : List MicroOp} (hi : Inv s) (hb : s.busy = false) (hf : s.fault = false)
    (hv : s.rspValid = false) (columns rows a b : Byte) (op : Nibble)
    (hl : expansionOf s.cfg.busMode rows op a b = some l)
    (hg : op = 0x1#4 ∨ columns = s.columns ∧ rows = s.rows) :
    Inv (startSequence l (storeGeometry columns rows (latchCommand op a b s))) where
  built := hi.built
  sequencer := ⟨Nat.zero_le _, length_expansionOf_le hl, fun _ => hl⟩
  enable := ⟨fun _ => hi.enable.2 hb hf, by simp⟩
  timer := ⟨hi.timer.1, fun h0 => absurd (hi.timer_eq_zero (by simp [hb])) h0⟩
  fault := ⟨by simp [hf], hi.fault.2⟩
  pins := hi.pins
  geometry := by
    rintro hinit - (h | h)
    · simp at h
    · obtain ⟨rfl, rfl⟩ := hg.resolve_left h
      exact hi.geometry hinit hf (.inl hb)
  response := by simp [ResponseOk, hv]
  lcd := hi.lcd

/-- R244: every way an acceptance can end meets the invariant. -/
theorem Inv.accept {w : CmdWord} {s t : State} (hi : Inv s) (hb : s.busy = false) (hf : s.fault = false)
    (hv : s.rspValid = false) (h : AcceptShape w s t) : Inv t := by
  have faulted (c : Cause) : Inv (raiseFault c (latched w s)) :=
    inv_raiseFault (s := latched w s) hi.built hi.pins hi.lcd c
  cases h with
  | illegal => exact faulted _
  | uninit => exact faulted _
  | cursor c => exact faulted c
  | begins ho =>
    exact hi.startSequence hb hf hv _ _ _ _ _ (by simp [expansionOf, ho]) (.inl ho)
  | starts l _ hl => exact hi.startSequence hb hf hv s.columns s.rows _ _ _ hl (.inr ⟨rfl, rfl⟩)

/-! The step. -/

/-- R174, R246: a failed drive is a fault, of an engine whose data lines are as they were or as driven, in any state of
the module. -/
theorem inv_failedDrive {s : State} (hc : buildable s.cfg = true) (hp : PinsOk s) (hl : LcdOk s) (c : Cause) :
    Inv (scrambleLcd (raiseFault c s)) :=
  (inv_raiseFault hc hp hl c).withLcd (anyLcd_good (Nat.zero_le 3) _)

/-- Settles O38: over the ways a step can go, each an operation that keeps the invariant. -/
theorem everyStepKeepsTheInvariant : Obligations.EveryStepKeepsTheInvariant := by
  intro s t hi h
  have hi' : Inv (beginCycle s) := hi.beginCycle
  obtain ⟨-, hs⟩ := step_shape h
  cases hs with
  | reset => exact hi'.resetEdge
  | completes _ hb hu => exact hi'.completeCommand hb hu
  | waits w _ hb hm => exact hi'.waitCycle hb hm _
  | failsRS b =>
    refine inv_failedDrive ?_ ?_ ?_ .pinDrive
    exacts [hi.built, hi.pins, hi.lcd]
  | failsD v =>
    refine inv_failedDrive ?_ ?_ ?_ .pinDrive
    exacts [hi.built, onDataLines_idem _ _, hi.lcd]
  | failsE b =>
    obtain ⟨e, tr, hfail, -⟩ := failE_eq (recordMicro (.drvE b) (Machine.beginCycle s))
    rw [hfail]
    refine inv_failedDrive ?_ ?_ ?_ .pinDrive
    exacts [hi.built, hi.pins, hi.lcd]
  | drivesRS b _ hb hm => exact { hi'.driveDone hb hm rfl with }
  | drivesD v _ hb hm => exact { hi'.driveDone hb hm rfl with pins := onDataLines_idem _ _ }
  | drivesE b _ hb hm => exact { hi'.driveDone hb hm rfl with }
  | falls l _ hb hm _ _ hl => exact { hi'.driveDone hb hm rfl with lcd := hl hi.lcd }
  | idles => exact hi'
  | accepts w t _ hb hf _ ht =>
    exact Inv.accept (s := takeCommand (Machine.beginCycle s)) { hi' with } hb hf rfl (acceptShape_of_exec ht hb hf)

/-- R44: the state right after reset, as the reset engine of the build. -/
theorem inv_afterReset {c : Config} (h : buildable c = true) : Inv (State.afterReset c) :=
  { inv_resetEngine (s := State.afterReset c) h ⟨rfl, Nat.zero_le 3⟩ with }

/-- Settles O39: construction gives the reset state of a build that elaboration accepts, and so is `State.reset`. -/
theorem resetStateIsGood : Obligations.ResetStateIsGood := by
  refine ⟨inv_afterReset (by decide), fun c s h => ?_⟩
  by_cases hc : buildable c = true
  · rw [elaborate_of_buildable hc] at h
    cases h
    exact inv_afterReset hc
  · rw [elaborate_of_not_buildable (Bool.eq_false_iff.2 hc)] at h
    cases h

/-- R45: an engine that is not busy goes on, with the word on its port or without. -/
theorem proceeds_of_not_busy {s : State} (hc : buildable s.cfg = true) (hr : (currentDraw s).rstN = true)
    (hb : s.busy = false) : Proceeds s := by
  cases hf : s.fault with
  | true => exact ⟨_, step_idles hc hr hb (.inl hf)⟩
  | false =>
    cases hw : presented s with
    | none => exact ⟨_, step_idles hc hr hb (.inr hw)⟩
    | some w =>
      obtain ⟨t, ht⟩ := exec_command_next w (takeCommand (beginCycle s))
      exact ⟨t, (step_accepts hc hr hb hf hw).trans ht⟩

/-- R170 to R174: a busy engine in a cycle of a micro-op goes on, whether its drive fails or not. -/
theorem proceeds_of_micro {s : State} {m : MicroOp} (hc : buildable s.cfg = true) (hr : (currentDraw s).rstN = true)
    (hb : s.busy = true) (hm : s.seq[s.upc]? = some m) : Proceeds s := by
  by_cases hfail : isDrive m = true ∧ (currentDraw s).pinErr = true
  · obtain ⟨t, ht, -⟩ := step_fails_drive hc hr hb hm hfail.1 hfail.2
    exact ⟨t, ht⟩
  · cases m with
    | wait w => exact ⟨_, step_micro_goes hc hr hb hm rfl⟩
    | drvRS | drvD => exact ⟨_, step_micro_goes hc hr hb hm (if_neg fun hp => hfail ⟨rfl, hp⟩)⟩
    | drvE l =>
      obtain ⟨m, hs, -⟩ := (driveEnableTakesOneCycle s l hc hb hr hm).1 (by simpa [isDrive] using hfail)
      exact ⟨_, hs⟩

/-- Settles O40: the position of a busy engine is that of a micro-op or the end of its expansion (R34). -/
theorem goodStatesProceed : Obligations.GoodStatesProceed := by
  intro s hi
  have hc := hi.built
  cases hr : (currentDraw s).rstN with
  | false => exact ⟨_, step_resets hc hr⟩
  | true =>
    cases hb : s.busy with
    | false => exact proceeds_of_not_busy hc hr hb
    | true =>
      obtain hu | hu := Nat.lt_or_eq_of_le hi.sequencer.1
      · exact proceeds_of_micro hc hr hb (List.getElem?_eq_getElem hu)
      · exact ⟨_, step_completes hc hr hb hu⟩

end Sys2Proof.Machine
end

section
/-! SUPPORT. The engine does not read the module (R41, R72): a step from a state with another module is the same step,
up to the module. And before BEGIN not even the module's reaction depends on what it held (R213). -/

namespace Sys2Proof.Machine

/-! The operations that leave the module alone do the same with another module in its place. -/

/-- An operation of the engine: it neither reads nor writes the module. -/
def IgnoresLcd (f : State → State) : Prop := ∀ l s, f (withLcd l s) = withLcd l (f s)

theorem ignoresLcd_raiseFault (c : Cause) : IgnoresLcd (raiseFault c) := fun _ _ => rfl

theorem ignoresLcd_startSequence (seq : BusMode → List MicroOp) :
    IgnoresLcd fun s => startSequence (seq s.cfg.busMode) s := fun _ _ => rfl

theorem IgnoresLcd.acceptCommand {body : State → State} (h : IgnoresLcd body) (op : Nibble) (a b : Byte) :
    IgnoresLcd (acceptCommand op a b body) := by
  intro l s
  unfold Machine.acceptCommand
  rw [show idle (withLcd l s) = idle s from rfl]
  split
  · exact h l (latchCommand op a b s)
  · rfl

theorem IgnoresLcd.checkUninit {body : State → State} (h : IgnoresLcd body) : IgnoresLcd (checkUninit body) := by
  intro l s
  unfold Machine.checkUninit
  rw [show uninitTrap (withLcd l s) = uninitTrap s from rfl]
  split
  · rfl
  · exact h l s

theorem ignoresLcd_startSetCursor (column row : Byte) : IgnoresLcd (startSetCursor column row) := by
  intro l s
  unfold startSetCursor
  rw [withLcd_rows]
  cases cursorAddr s.rows column row <;> rfl

theorem ignoresLcd_waitCycle (w : Delay) (hold : Bool) : IgnoresLcd (waitCycle w hold) := by
  intro l s
  unfold waitCycle
  rw [withLcd_timer, withLcd_cfg]
  split_ifs <;> rfl

/-- Which module a failed drive leaves is decided by the counter of free values. -/
theorem scrambleLcd_withLcd (l : Lcd) (s : State) :
    scrambleLcd (withLcd l s) = withLcd (anyLcd 0 l) (scrambleLcd s) := rfl

theorem ignoresLcd_failE : IgnoresLcd failE := by
  intro l s
  unfold failE failedLatch
  rw [withLcd_eQ, withLcd_freeIdx]
  split_ifs <;> rfl

/-- R45, R102: a command word is no bus word. -/
theorem isBusWord_decodeCommand (w : CmdWord) : Instr.isBusWord (decodeCommand w) = false := by
  unfold decodeCommand
  simp only []
  split_ifs <;> rfl

/-- R45, R244: a host command is an acceptance, whose body is an operation of the engine. -/
theorem exec_command_eq_acceptCommand {i : Instr} (hi : Instr.isBusWord i = false) : ∃ op a b body,
    IgnoresLcd body ∧ ∀ s, exec i s = .next (acceptCommand op a b body s) := by
  cases i with
  | lcdBegin columns rows => exact ⟨_, _, _, _, fun _ _ => rfl, fun _ => rfl⟩
  | clear ab => exact ⟨_, _, _, _, (ignoresLcd_startSequence clearSeq).checkUninit, fun _ => rfl⟩
  | setCursor column row => exact ⟨_, _, _, _, (ignoresLcd_startSetCursor column row).checkUninit, fun _ => rfl⟩
  | printChar a ch =>
    exact ⟨_, _, _, _, (ignoresLcd_startSequence fun m => printCharSeq m ch).checkUninit, fun _ => rfl⟩
  | printEnd ab => exact ⟨_, _, _, _, (ignoresLcd_startSequence fun _ => printEndSeq).checkUninit, fun _ => rfl⟩
  | getColumns ab => exact ⟨_, _, _, _, ignoresLcd_startSequence fun _ => getterSeq, fun _ => rfl⟩
  | getRows ab => exact ⟨_, _, _, _, ignoresLcd_startSequence fun _ => getterSeq, fun _ => rfl⟩
  | reserved0 ab => exact ⟨_, _, _, _, ignoresLcd_raiseFault _, fun _ => rfl⟩
  | reserved8F op ab => exact ⟨_, _, _, _, ignoresLcd_raiseFault _, fun _ => rfl⟩
  | _ => simp [Instr.isBusWord] at hi

/-- With another module an acceptance ends in the same state of the engine. -/
theorem exec_command_withLcd (w : CmdWord) (l : Lcd) {s t : State} (h : exec (decodeCommand w) s = .next t) :
    exec (decodeCommand w) (withLcd l s) = .next (withLcd l t) := by
  obtain ⟨op, a, b, body, hbody, hexec⟩ := exec_command_eq_acceptCommand (isBusWord_decodeCommand w)
  rw [hexec, hbody.acceptCommand op a b l s, ← Host.Outcome.next.inj ((hexec s).symm.trans h)]

/-! The step. -/

/-- With another module the step goes the same way, and comes to the same state up to the module. -/
theorem step_withLcd (l : Lcd) {s t : State} (h : step s = .next t) :
    ∃ l', step (withLcd l s) = .next (withLcd l' t) := by
  obtain ⟨hc, hs⟩ := step_shape h
  cases hs with
  | reset hr =>
    obtain ⟨l', hl', -⟩ := resetEdge_shape (beginCycle (withLcd l s))
    obtain ⟨l'', hl'', -⟩ := resetEdge_shape (beginCycle s)
    exact ⟨l', by rw [step_resets (s := withLcd l s) hc hr, hl', hl'']; rfl⟩
  | completes hr hb hu => exact ⟨l, step_completes (s := withLcd l s) hc hr hb hu⟩
  | waits w hr hb hm =>
    have hgo : step (withLcd l s) = .next (waitCycle w (currentDraw s).hold (withLcd l (beginCycle s))) :=
      step_micro_goes (s := withLcd l s) hc hr hb hm rfl
    exact ⟨l, by rw [hgo, ignoresLcd_waitCycle]⟩
  | failsRS _ hr hb hm hp | failsD _ hr hb hm hp =>
    exact ⟨anyLcd 0 l, step_micro_goes (s := withLcd l s) hc hr hb hm (if_pos hp)⟩
  | failsE b hr hb hm hp =>
    have hgo : step (withLcd l s) =
        .next (scrambleLcd (failE (withLcd l (recordMicro (.drvE b) (beginCycle s))))) :=
      step_micro_goes (s := withLcd l s) hc hr hb hm (if_pos hp)
    exact ⟨anyLcd 0 l, by rw [hgo, ignoresLcd_failE, scrambleLcd_withLcd]⟩
  | drivesRS _ hr hb hm hp | drivesD _ hr hb hm hp =>
    exact ⟨l, step_micro_goes (s := withLcd l s) hc hr hb hm (if_neg (Bool.eq_false_iff.1 hp))⟩
  | drivesE b hr hb hm hp he =>
    refine ⟨l, step_drivesE (s := withLcd l s) hc hr hb hm hp ?_⟩
    rintro ⟨heq, rfl⟩
    exact not_falls_of_fallingEdge he ⟨rfl, heq⟩
  | falls l' hr hb hm hp he => exact step_falls (s := withLcd l s) hc hr hb hm hp he
  | idles hr hb hn => exact ⟨l, step_idles (s := withLcd l s) hc hr hb hn⟩
  | accepts w t hr hb hf hw ht =>
    exact ⟨l, (step_accepts (s := withLcd l s) hc hr hb hf hw).trans (exec_command_withLcd w l ht)⟩

/-- States that show the same are equal but for the module. -/
theorem eq_withLcd_of_engineView_eq {s s' : State} (h : engineView s = engineView s') : s' = withLcd s'.lcd s :=
  (congrArg (withLcd s'.lcd) h.symm :)

/-- Settles O41: the second state is the first with another module, so its step is the first one's. -/
theorem engineNeverReadsTheModule : Obligations.EngineNeverReadsTheModule := by
  intro s s' t t' hview h h'
  obtain ⟨l, hl⟩ := step_withLcd s'.lcd h
  rw [← eq_withLcd_of_engineView_eq hview, h'] at hl
  rw [Host.Outcome.next.inj hl]
  rfl

/-! Before BEGIN. -/

/-- Settles O50: before BEGIN no transfer has a reading, and what the module is after it is decided by its counters. -/
theorem useBeforeBeginLeavesTheModuleOpen : Obligations.UseBeforeBeginLeavesTheModuleOpen := by
  intro s l hc hb hu hop hr hp hx hm he hwakes hfree
  have hbefore : beforeBegin s = true := by simp [beforeBegin, hu, hop]
  have hs := step_falls_unread hc hr hb hm hp hx he (reading_of_before hbefore)
  have hs' := step_falls_unread (s := withLcd l s) hc hr hb hm hp hx he
    (reading_of_before (s := withLcd l s) hbefore)
  constructor
  · calc step (withLcd l s)
        = .next (withLcd (anyLcd (nextWakes s.cfg.busMode ⟨s.rsQ, s.dQ⟩ l.wakes) l)
            (fallE (recordMicro (.drvE false) (beginCycle s)))) := hs'
      _ = step s := by rw [hwakes, anyLcd_congr hfree, hs]
  · exact ⟨_, rfl, by rw [hs, fallE_beginCycle, withLcd]⟩

end Sys2Proof.Machine
end

section
/-! SUPPORT. The acceptance of the host commands (R45, R244) written out: the commands that start an expansion, the
getters up to their response, the reserved commands, and what no acceptance changes. -/

namespace Sys2Proof.Machine

/-- R207: the value of a character word is the character. -/
@[simp] theorem busValue_writeData (ch : Byte) : busValue (encode (.writeData ch)) = ch := by
  ext i hi
  simp [busValue, encode, busWord]

/-! The commands that start. -/

/-- Settles O6: BEGIN has no check at acceptance. -/
theorem beginIsAccepted : Obligations.BeginIsAccepted := by
  intro s columns rows hb hf
  exact congrArg Host.Outcome.next (acceptCommand_of_idle hb hf _ _ _ _)

/-- R243: where the uninitialized-use check does not hold, a checked command is its body. -/
theorem acceptCommand_checkUninit {s : State} (hb : s.busy = false) (hf : s.fault = false)
    (hn : s.cfg.trapUninit = false ∨ s.initState = .ready) (op : Nibble) (a b : Byte) (body : State → State) :
    acceptCommand op a b (checkUninit body) s = body (latchCommand op a b s) := by
  rw [acceptCommand_of_idle hb hf, checkUninit_of_no_trap (by simpa using hn)]

/-- Settles O7: past the check each command starts its expansion. -/
theorem textCommandsAreAccepted : Obligations.TextCommandsAreAccepted := by
  intro s ab a ch hb hf hn
  refine ⟨?_, ?_, ?_⟩
  · refine (congrArg Host.Outcome.next (acceptCommand_checkUninit hb hf hn _ _ _ _)).trans ?_
    rw [latchCommand_cfg]
    cases s.cfg.busMode <;> rfl
  · rw [← busValue_writeData ch, ← printCharSeq_eq, busValue_writeData]
    exact congrArg Host.Outcome.next (acceptCommand_checkUninit hb hf hn _ _ _ _)
  · exact congrArg Host.Outcome.next (acceptCommand_checkUninit hb hf hn _ _ _ _)

/-- R183, R211, R212: an accepted getter has no micro-op to run, so the next edge completes it. -/
theorem step_of_getter {s : State} (hc : buildable s.cfg = true) (hr : (currentDraw s).rstN = true) (op : Nibble)
    (a b : Byte) : step (startSequence getterSeq (latchCommand op a b s)) =
      .next (completeCommand (beginCycle (startSequence getterSeq (latchCommand op a b s)))) :=
  step_completes hc hr rfl rfl

/-- Settles O8: the response is that of the completion one edge later. -/
theorem gettersAnswerTheGeometry : Obligations.GettersAnswerTheGeometry := by
  intro s ab hb hf hc hr
  have accepted (op : Nibble) := acceptCommand_of_idle hb hf op (ignoredA ab) (ignoredB ab) (startSequence getterSeq)
  have responds (op : Nibble) := step_of_getter hc (currentDraw_of_head hr) op (ignoredA ab) (ignoredB ab)
  exact ⟨⟨_, _, congrArg Host.Outcome.next (accepted 0x6#4), rfl, rfl, responds 0x6#4, rfl, rfl, rfl, rfl, rfl, rfl⟩,
    ⟨_, _, congrArg Host.Outcome.next (accepted 0x7#4), rfl, rfl, responds 0x7#4, rfl, rfl, rfl, rfl, rfl, rfl⟩⟩

/-! The reserved commands. -/

/-- R103: a command of either reserved row is accepted with the fault ILLEGAL_OP. -/
theorem exec_reserved {op : Nibble} (h : op = 0x0#4 ∨ 8 ≤ op.toNat) (a b : Byte) (s : State) :
    exec (decodeCommand (commandWord op a b)) s = .next (acceptCommand op a b (raiseFault .illegalOp) s) := by
  obtain rfl | h8 := h
  · simp [decodeCommand, exec, execReserved0]
  · simp [decodeCommand_of_reservedHigh (w := commandWord op a b) (by simpa using h8), exec, execReserved8F]

/-- Settles O10: the acceptance of a reserved command is the fault ILLEGAL_OP. -/
theorem reservedOpRaisesIllegalOp : Obligations.ReservedOpRaisesIllegalOp := by
  intro s op a b hop hb hf
  rw [exec_reserved hop, acceptCommand_of_idle hb hf]
  simp [raiseFault, latchCommand, hb, Cause.code]

/-! What an acceptance leaves alone. -/

/-- Settles O12: `cmd_ready` is 0, so the command is not accepted. -/
theorem notReadyAcceptsNothing : Obligations.NotReadyAcceptsNothing := fun _ w h => exec_command_of_not_idle w h

/-- The part of the state that no acceptance touches, whether it starts the command or ends in a fault. -/
theorem AcceptShape.frame {w : CmdWord} {s t : State} (h : AcceptShape w s t) :
    t.cfg = s.cfg ∧ t.rsQ = s.rsQ ∧ t.eQ = s.eQ ∧ t.dQ = s.dQ ∧ t.initState = s.initState ∧ t.now = s.now ∧
      t.trace = s.trace ∧ t.transfers = s.transfers ∧ t.host = s.host ∧ t.draws = s.draws ∧ t.freeIdx = s.freeIdx ∧
      t.lcd = s.lcd := by
  cases h <;> exact ⟨rfl, rfl, rfl, rfl, rfl, rfl, rfl, rfl, rfl, rfl, rfl, rfl⟩

/-- R140: no acceptance but BEGIN's writes the geometry. -/
theorem AcceptShape.geometry {w : CmdWord} {s t : State} (h : AcceptShape w s t) (ho : opField w ≠ 0x1#4) :
    t.columns = s.columns ∧ t.rows = s.rows := by
  cases h with
  | begins hbegin => exact absurd hbegin ho
  | _ => exact ⟨rfl, rfl⟩

/-- R245, R246: an acceptance keeps the fault flag and the timer, or enters the fault state, which stops the timer. -/
theorem AcceptShape.fault_timer {w : CmdWord} {s t : State} (h : AcceptShape w s t) :
    (t.fault = s.fault ∨ t.fault = true) ∧ (t.timer = s.timer ∨ t.timer = 0) := by
  cases h with
  | begins => exact ⟨.inl rfl, .inl rfl⟩
  | starts => exact ⟨.inl rfl, .inl rfl⟩
  | _ => exact ⟨.inr rfl, .inr rfl⟩

/-- Settles O14: at an idle engine by what an acceptance can do, elsewhere because nothing happens. -/
theorem commandAcceptanceFrame : Obligations.CommandAcceptanceFrame := by
  intro s t w h
  by_cases hidle : s.busy = false ∧ s.fault = false
  · have hs := acceptShape_of_exec h hidle.1 hidle.2
    obtain ⟨hcfg, hrs, he, hd, hinit, hnow, htrace, htransfers, hhost, hdraws, hfree, hlcd⟩ := hs.frame
    obtain ⟨hfault, htimer⟩ := hs.fault_timer
    exact ⟨hcfg, hrs, he, hd, hinit, hnow, htrace, htransfers, hhost, hdraws, hfree, hlcd, fun _ => by rw [hlcd],
      hs.geometry, hfault, htimer⟩
  · rw [exec_command_of_not_idle w (by grind)] at h
    cases h
    exact ⟨rfl, rfl, rfl, rfl, rfl, rfl, rfl, rfl, rfl, rfl, rfl, rfl, fun _ => rfl, fun _ => ⟨rfl, rfl⟩, .inl rfl,
      .inl rfl⟩

/-! The step that runs a decoded word. -/

/-- Settles O19: the acceptance and the idle cycle, forwards. -/
theorem stepRunsTheAcceptedCommand : Obligations.StepRunsTheAcceptedCommand := by
  intro s hc hb hf hr
  exact ⟨fun w hw => step_accepts hc hr hb hf hw,
    fun hn => ⟨s.rspData, s.rspErr, step_idles hc hr hb (.inr hn)⟩⟩

/-- Settles O20: in the cycle that drops E the module takes the transfer, and the word that it completes is decoded. -/
theorem stepRunsTheBusWord : Obligations.StepRunsTheBusWord := by
  intro s p c i hc hb hr hp hx hm he hread hdecode
  have hword : receive ⟨s.rsQ, s.dQ⟩ (fallE (recordMicro (.drvE false) (beginCycle s))) =
      .runs i (takeWord (nextWakes s.cfg.busMode ⟨s.rsQ, s.dQ⟩ s.lcd.wakes)
        (fallE (recordMicro (.drvE false) (beginCycle s)))) := by
    simp only [receive, reading_fallE, hread, hdecode]
    rfl
  rw [step_micro hc hr hb hm, runMicro_falls hp hx he, hword, fallE_beginCycle]
  rfl

end Sys2Proof.Machine
end

section
/-! SUPPORT. The words of the bus: their effect in the module (R107, 95_test_vectors.md section 4) with the memory that
they leave alone, and that the engine puts no other word on the bus (R111). -/

namespace Sys2Proof.Machine

/-! The effect in the module. -/

/-- Settles O15: each word is one operation of the module. -/
theorem busWordsTakeEffect : Obligations.BusWordsTakeEffect := by
  intro s
  exact ⟨⟨_, _, rfl⟩, ⟨_, _, rfl⟩, rfl, rfl, rfl, rfl, rfl, rfl, rfl, { s.lcd with ddram := [] }, rfl, fun _ => rfl⟩

theorem exec_setDdramAddr_of_valid {s : State} {a : DdramAddr} (h : lcdValidAddr s.lcd.twoLine a = true) :
    exec (.setDdramAddr a) s = .next (withLcd { s.lcd with ac := a } s) := by
  simp [exec, execSetDdramAddr, lcdSetAddr, h]

/-- Settles O16: an address that the module does not have changes the module only. -/
theorem setAddressMovesTheCounter : Obligations.SetAddressMovesTheCounter := by
  refine fun s a => ⟨exec_setDdramAddr_of_valid, fun _ => ?_⟩
  obtain ⟨l, hl, -⟩ := exec_busWord (i := .setDdramAddr a) rfl s
  exact ⟨l, hl⟩

/-- Settles O17, by the read after a write. -/
theorem characterIsWrittenAtTheCounter : Obligations.CharacterIsWrittenAtTheCounter := by
  intro s ch hl
  refine ⟨_, _, rfl, fun addr => ddramRead_ddramWrite _ _ addr _ hl.1, fun hi hv => ?_⟩
  exact if_pos (by rw [hi, hv]; rfl)

/-- Only clear display, a character byte and an address the module does not have touch its memory. -/
theorem exec_busWord_ddram {i : Instr} {s t : State} (hi : Instr.isBusWord i = true) (hclear : i ≠ .clearDisplay)
    (hwrite : ∀ ch, i ≠ .writeData ch) (haddr : ∀ a, i = .setDdramAddr a → lcdValidAddr s.lcd.twoLine a = true)
    (h : exec i s = .next t) : t.lcd.ddram = s.lcd.ddram := by
  cases i with
  | clearDisplay => exact absurd rfl hclear
  | writeData ch => exact absurd rfl (hwrite ch)
  | setDdramAddr a =>
    rw [exec_setDdramAddr_of_valid (haddr a rfl)] at h
    cases h
    rfl
  | initNibble3 | switchNibble2 | initByte30 | fset4Bit1Line | fset4Bit2Line | fset8Bit1Line | fset8Bit2Line
  | displayControl | entryMode =>
    cases h
    rfl
  | _ => simp [Instr.isBusWord] at hi

/-- Settles O18: a word that decodes from the bus is a bus word, which changes the module only. -/
theorem busWordFrame : Obligations.BusWordFrame := by
  intro s t p i hdecode h
  have hi : Instr.isBusWord i = true := by
    obtain ⟨w, hw⟩ | ⟨w, hw⟩ := hdecode
    · exact decodeNibble_isBusWord hw
    · exact decodeByte_isBusWord hw
  refine ⟨?_, fun hclear hwrite haddr addr => by rw [exec_busWord_ddram hi hclear hwrite haddr h]⟩
  obtain ⟨l, hl, -⟩ := exec_busWord hi s
  obtain rfl : t = withLcd l s := Host.Outcome.next.inj (h.symm.trans hl)
  rfl

/-! The words on the bus. -/

/-- R107: a value on all eight data lines, under its level of RS, is a bus byte of the table. -/
def IsBusByte (t : Transfer) : Prop := ∃ p i, decodeByte p (busWord t.rs t.value) = .ok i

/-- R107: a value on the data lines of FOUR_BIT, under its level of RS, is a lone nibble of the table. -/
def IsLoneNibble (t : Transfer) : Prop := ∃ i, decodeNibble (nibbleWord t.rs (t.value.setWidth 4)) = .ok i

/-- R79: the transfers of a byte in FOUR_BIT. -/
def nibbles (t : Transfer) : List Transfer := [⟨t.rs, highNibble t.value⟩, ⟨t.rs, lowNibble t.value⟩]

/-- R107, R111: what an expansion puts on the bus when it starts with E low. -/
def EmitsTableWords (m : BusMode) (l : List MicroOp) : Prop :=
  ∀ rs d, match m with
    | .eightBit => ∀ t ∈ transfersOf .eightBit rs false d l, IsBusByte t
    | .fourBit => ∃ lone bytes : List Transfer, transfersOf .fourBit rs false d l = lone ++ bytes.flatMap nibbles ∧
        (∀ t ∈ lone, IsLoneNibble t) ∧ ∀ t ∈ bytes, IsBusByte t

/-- R109: the opcode bit makes any byte an address. -/
theorem isBusByte_setDdramByte (addr : Byte) : IsBusByte ⟨false, setDdramByte addr⟩ :=
  ⟨false, _, decodeByte_opcodeBit false addr⟩

theorem isBusByte_data (ch : Byte) : IsBusByte ⟨true, ch⟩ := ⟨false, _, decodeByte_writeData false ch⟩

/-- R108: the four function-set bytes are in the table. -/
theorem isBusByte_fset (m : BusMode) (rows : Byte) : IsBusByte ⟨false, fset m rows⟩ := by
  by_cases h : 1 < rows.toNat <;> cases m <;> simp only [fset, twoLineFlag, h] <;> exact ⟨false, _, rfl⟩

/-- A byte sent and a wait after it make the transfers of the one byte. -/
theorem EmitsTableWords.of_send {v : Byte} {isData : Bool} (h : IsBusByte ⟨isData, v⟩) (m : BusMode)
    (waits : List MicroOp) (hw : ∀ rs e d, transfersOf m rs e d waits = []) :
    EmitsTableWords m (send m v isData ++ waits) := by
  intro rs d
  cases m with
  | eightBit => simpa [transfersOf_send_eightBit_append, hw] using h
  | fourBit =>
    refine ⟨[], [⟨isData, v⟩], ?_, by simp, by simpa using h⟩
    simp [transfersOf_send_fourBit_append, hw, nibbles]

/-- R153: BEGIN emits its lone nibbles or its init bytes, and then four bytes. -/
theorem emitsTableWords_beginSeq (m : BusMode) (rows : Byte) : EmitsTableWords m (beginSeq m rows) := by
  intro rs d
  cases m with
  | eightBit =>
    intro t ht
    have hinit : IsBusByte ⟨false, 0x30⟩ := ⟨true, _, rfl⟩
    have hfset := isBusByte_fset .eightBit rows
    rw [fset_eightBit] at hfset
    simp only [transfersOf_beginSeq_eightBit, List.mem_cons, List.not_mem_nil, or_false] at ht
    obtain rfl | rfl | rfl | rfl | rfl | rfl | rfl := ht
    exacts [hinit, hinit, hinit, hfset, ⟨false, _, rfl⟩, ⟨false, _, rfl⟩, ⟨false, _, rfl⟩]
  | fourBit =>
    refine ⟨[⟨false, 0x3⟩, ⟨false, 0x3⟩, ⟨false, 0x3⟩, ⟨false, 0x2⟩],
      [⟨false, fset .fourBit rows⟩, ⟨false, 0x0C⟩, ⟨false, 0x01⟩, ⟨false, 0x06⟩], ?_, ?_, ?_⟩
    · simp only [transfersOf_beginSeq_fourBit, List.flatMap_cons, nibbles, highNibble_fset_fourBit,
        lowNibble_fset_fourBit]
      rfl
    · simp only [List.mem_cons, List.not_mem_nil, or_false]
      rintro t (rfl | rfl | rfl | rfl) <;> exact ⟨_, rfl⟩
    · simp only [List.mem_cons, List.not_mem_nil, or_false]
      rintro t (rfl | rfl | rfl | rfl)
      · exact isBusByte_fset .fourBit rows
      all_goals exact ⟨false, _, rfl⟩

theorem emitsTableWords_of_expansionOf {m : BusMode} {rows a b : Byte} {op : Nibble} {l : List MicroOp}
    (h : expansionOf m rows op a b = some l) : EmitsTableWords m l := by
  have silent {l : List MicroOp} (hl : ∀ rs e d, transfersOf m rs e d l = []) : EmitsTableWords m l := by
    intro rs d
    cases m with
    | eightBit => simp [hl]
    | fourBit => exact ⟨[], [], by simp [hl]⟩
  obtain rfl | rfl | ⟨addr, rfl⟩ | rfl | rfl | rfl := expansionOf_cases h
  · exact emitsTableWords_beginSeq m b
  · exact .of_send ⟨false, _, rfl⟩ m _ fun _ _ _ => rfl
  · rw [← List.append_nil (setCursorSeq m addr)]
    exact .of_send (isBusByte_setDdramByte addr) m [] fun _ _ _ => rfl
  · rw [printCharSeq_eq]
    exact .of_send (isBusByte_data _) m _ fun _ _ _ => rfl
  · exact silent fun _ _ _ => rfl
  · exact silent fun _ _ _ => rfl

/-- Settles O5, mode by mode. -/
theorem everyTransferIsATableWord : Obligations.EveryTransferIsATableWord := by
  intro rows a b d op rs l
  exact ⟨fun h => emitsTableWords_of_expansionOf h rs d, fun h => emitsTableWords_of_expansionOf h rs d⟩

end Sys2Proof.Machine
end

section
/-! SUPPORT. What a step can do to each part of the engine: the pins (R31, R259), the running command (R34), the
initialization state (R33), the geometry (R32) and the fault state (R36, R246, R249). -/

namespace Sys2Proof.Machine

@[simp] theorem resetEdge_busy (s : State) : (resetEdge s).busy = false := by
  obtain ⟨l, hl, -⟩ := resetEdge_shape s
  rw [hl]
  rfl

/-! The pins. -/

/-- R31, R174: without reset each pin keeps its level but in the cycle of its own drive, failed or not. -/
theorem step_pin_cases {s t : State} (h : step s = .next t) (hr : (currentDraw s).rstN = true) :
    (t.rsQ = s.rsQ ∨ s.busy = true ∧ ∃ l, s.seq[s.upc]? = some (.drvRS l)) ∧
    (t.eQ = s.eQ ∨ s.busy = true ∧ ∃ l, s.seq[s.upc]? = some (.drvE l)) ∧
    (t.dQ = s.dQ ∨ s.busy = true ∧ ∃ v, s.seq[s.upc]? = some (.drvD v)) := by
  obtain ⟨-, hs⟩ := step_shape h
  cases hs with
  | reset hr' => simp [hr] at hr'
  | failsRS b _ hb hm => simp [hb, hm, scrambleLcd, failRS]
  | drivesRS b _ hb hm => simp [hb, hm]
  | failsD v _ hb hm => simp [hb, hm, scrambleLcd, failD]
  | drivesD v _ hb hm => simp [hb, hm]
  | failsE b _ hb hm =>
    obtain ⟨e, tr, hfail, -⟩ := failE_eq (recordMicro (.drvE b) (beginCycle s))
    simp [hb, hm, scrambleLcd, hfail]
  | drivesE b _ hb hm => simp [hb, hm]
  | falls l _ hb hm => simp [hb, hm, fallE]
  | completes => simp
  | idles => simp
  | waits w =>
    obtain ⟨n, k, tr, he, -⟩ := waitCycle_frame w (currentDraw s).hold (beginCycle s)
    simp [he]
  | accepts w t _ hb hf _ ht =>
    obtain ⟨-, hrs, he, hd, -⟩ := (acceptShape_of_exec ht hb hf).frame
    exact ⟨.inl hrs, .inl he, .inl hd⟩

/-- Settles O51, pin by pin. -/
theorem pinsMoveOnlyInTheirDrives : Obligations.PinsMoveOnlyInTheirDrives := by
  intro s t h hr
  obtain ⟨hrs, he, hd⟩ := step_pin_cases h hr
  exact ⟨hrs.resolve_left, he.resolve_left, hd.resolve_left⟩

/-! The running command. -/

/-- Settles O34: a busy engine that stays busy has run one cycle of a micro-op with no fault. -/
theorem runningCommandIsFixed : Obligations.RunningCommandIsFixed := by
  intro s t h hb hbt
  obtain ⟨-, hs⟩ := step_shape h
  cases hs with
  | reset => simp at hbt
  | completes => simp at hbt
  | failsRS => simp [scrambleLcd, failRS] at hbt
  | failsD => simp [scrambleLcd, failD] at hbt
  | failsE => simp [scrambleLcd, failE] at hbt
  | idles _ hb' => simp [hb] at hb'
  | accepts w t _ hb' => simp [hb] at hb'
  | drivesRS => simp
  | drivesD => simp
  | drivesE => simp
  | falls => simp [fallE]
  | waits w =>
    obtain ⟨n, k, tr, he, hk, -⟩ := waitCycle_frame w (currentDraw s).hold (beginCycle s)
    simpa [he] using hk.imp_right And.left

/-! The initialization state. -/

/-- R33: the initialization state changes at a reset edge and at completion only. -/
theorem step_initState_cases {s t : State} (h : step s = .next t) :
    ((currentDraw s).rstN = false ∧ t.initState = .uninit) ∨
    (s.busy = true ∧ s.upc = s.seq.length ∧ t = completeCommand (beginCycle s)) ∨ t.initState = s.initState := by
  obtain ⟨-, hs⟩ := step_shape h
  cases hs with
  | reset hr =>
    obtain ⟨l, hl, -⟩ := resetEdge_shape (beginCycle s)
    exact .inl ⟨hr, by rw [hl]; rfl⟩
  | completes _ hb hu => exact .inr (.inl ⟨hb, hu, rfl⟩)
  | waits w =>
    obtain ⟨n, k, tr, he, -⟩ := waitCycle_frame w (currentDraw s).hold (beginCycle s)
    exact .inr (.inr (by simp [he]))
  | failsE b =>
    obtain ⟨e, tr, hfail, -⟩ := failE_eq (recordMicro (.drvE b) (beginCycle s))
    exact .inr (.inr (by simp [hfail, scrambleLcd]))
  | accepts w t _ hb hf _ ht =>
    obtain ⟨-, -, -, -, hinit, -⟩ := (acceptShape_of_exec ht hb hf).frame
    exact .inr (.inr hinit)
  | _ => exact .inr (.inr (by simp [scrambleLcd, failRS, failD, fallE]))

/-- Settles O35: completion makes READY of UNINIT only for BEGIN, and never UNINIT of READY. -/
theorem onlyCompletedBeginMakesReady : Obligations.OnlyCompletedBeginMakesReady := by
  intro s t h
  obtain ⟨hr, ht⟩ | ⟨hb, hu, rfl⟩ | ht := step_initState_cases h
  · exact ⟨fun _ hready => by simp [ht] at hready, fun _ _ => hr⟩
  · refine ⟨fun huninit hready => ?_, fun hready huninit => ?_⟩
    · have hop : s.curOp = 0x1#4 := by
        by_contra hop
        simp [initAfter, hop, huninit] at hready
      exact ⟨hb, hop, hu, rfl, rfl⟩
    · simp [initAfter, hready] at huninit
  · exact ⟨fun hs hready => by simp [ht, hs] at hready, fun hs huninit => by simp [ht, hs] at huninit⟩

/-! The geometry. -/

/-- R140: the acceptance of BEGIN stores its two arguments. -/
theorem AcceptShape.geometry_of_begin {w : CmdWord} {s t : State} (h : AcceptShape w s t) (ho : opField w = 0x1#4) :
    t.columns = aField w ∧ t.rows = bField w := by
  cases h with
  | begins => exact ⟨rfl, rfl⟩
  | illegal hop => simp [ho] at hop
  | uninit _ _ hop => simp [ho, displayOp] at hop
  | cursor _ _ hop => simp [ho] at hop
  | starts _ hop => exact absurd ho hop

/-- Settles O36: every step keeps the geometry but a reset edge and the acceptance of a BEGIN. -/
theorem onlyBeginWritesGeometry : Obligations.OnlyBeginWritesGeometry := by
  intro s t h hne
  obtain ⟨-, hs⟩ := step_shape h
  cases hs with
  | reset hr =>
    obtain ⟨l, hl, -⟩ := resetEdge_shape (beginCycle s)
    exact .inl ⟨hr, by rw [hl]; rfl, by rw [hl]; rfl⟩
  | accepts w t _ hb hf hw ht =>
    have hs := acceptShape_of_exec ht hb hf
    have ho : opField w = 0x1#4 := by
      by_contra ho
      obtain ⟨hcolumns, hrows⟩ := hs.geometry ho
      exact hne.elim (absurd hcolumns) (absurd hrows)
    exact .inr ⟨hb, hf, w, hw, ho, hs.geometry_of_begin ho⟩
  | waits w =>
    obtain ⟨n, k, tr, he, -⟩ := waitCycle_frame w (currentDraw s).hold (beginCycle s)
    simp [he] at hne
  | failsE b =>
    obtain ⟨e, tr, hfail, -⟩ := failE_eq (recordMicro (.drvE b) (beginCycle s))
    simp [hfail, scrambleLcd] at hne
  | _ => simp [scrambleLcd, failRS, failD, fallE] at hne

/-! The fault state. -/

/-- Settles O37: a faulted engine is not busy, so without reset it idles. -/
theorem onlyResetClearsTheFault : Obligations.OnlyResetClearsTheFault := by
  intro s t hi h hf
  cases hr : (currentDraw s).rstN with
  | false => exact .inl rfl
  | true =>
    obtain rfl : beginCycle s = t :=
      Host.Outcome.next.inj ((step_idles hi.built hr (hi.fault.1 hf) (.inl hf)).symm.trans h)
    exact .inr ⟨hf, rfl, rfl⟩

/-- R246: a step that raises a fault enters it by `raiseFault`, from a state `u` in which the geometry, the
initialization state and the build are as before, and at most one transfer was made. -/
theorem step_raises_fault {s t : State} (h : step s = .next t) (hf : s.fault = false) (hft : t.fault = true) :
    ∃ c u l, t = withLcd l (raiseFault c u) ∧ (s.busy = true → u.curOp = s.curOp) ∧
      (s.busy = false → ∃ w, presented s = some w ∧ u.curOp = opField w) ∧
      u.columns = s.columns ∧ u.rows = s.rows ∧ u.initState = s.initState ∧ u.cfg = s.cfg ∧
      (u.transfers = s.transfers ∨ s.eQ = true ∧ u.transfers = s.transfers ++ [⟨s.rsQ, s.dQ⟩]) := by
  obtain ⟨-, hs⟩ := step_shape h
  cases hs with
  | failsRS b _ hb =>
    exact ⟨.pinDrive, useFree (driveRS _ (recordMicro (.drvRS b) (beginCycle s))), _, rfl, by simp [hb]⟩
  | failsD v _ hb =>
    exact ⟨.pinDrive, useFree (driveD _ (recordMicro (.drvD v) (beginCycle s))), _, rfl, by simp [hb]⟩
  | failsE b _ hb =>
    obtain ⟨e, tr, hfail, htr⟩ := failE_eq (recordMicro (.drvE b) (beginCycle s))
    rw [hfail]
    exact ⟨.pinDrive, useFree (driveE e _), _, rfl, by simpa [hb] using htr⟩
  | accepts w t _ hb _ hw ht =>
    cases acceptShape_of_exec ht hb hf with
    | begins => simp [hf] at hft
    | starts => simp [hf] at hft
    | illegal => exact ⟨.illegalOp, latched w (takeCommand (beginCycle s)), s.lcd, rfl, by simp [hb, hw]⟩
    | uninit => exact ⟨.uninitUse, latched w (takeCommand (beginCycle s)), s.lcd, rfl, by simp [hb, hw]⟩
    | cursor c => exact ⟨c, latched w (takeCommand (beginCycle s)), s.lcd, rfl, by simp [hb, hw]⟩
  | reset =>
    obtain ⟨l, hl, -⟩ := resetEdge_shape (beginCycle s)
    simp [hl] at hft
  | _ => simp [hf] at hft

/-- A step that raises a fault is no reset edge. -/
theorem rstN_of_raises_fault {s t : State} (h : step s = .next t) (hft : t.fault = true) :
    (currentDraw s).rstN = true := by
  by_contra hr
  obtain ⟨l, hl, -⟩ := resetEdge_shape (beginCycle s)
  have ht := step_resets (step_shape h).1 (Bool.eq_false_iff.2 hr)
  rw [h, hl] at ht
  simp [Host.Outcome.next.inj ht] at hft

/-- Settles O30: the fault state and the response are those of `raiseFault`, and the pins move only in their drives. -/
theorem faultEntryIsUniform : Obligations.FaultEntryIsUniform := by
  intro s t h hf hft
  have hpins := step_pin_cases h (rstN_of_raises_fault h hft)
  obtain ⟨c, u, l, rfl, hrunning, hpresented, hcolumns, hrows, hinit, hcfg, htransfers⟩ := step_raises_fault h hf hft
  exact ⟨⟨c, rfl, rfl⟩, hrunning, hpresented, rfl, rfl, rfl, rfl, rfl, hcolumns, hrows, hinit, hcfg, htransfers,
    hpins⟩

/-! The environment. -/

/-- R173: a cycle in which no pin is driven does not look at `pin_err`. -/
theorem microCycle_pinErr {s : State} (h : ∀ m, s.seq[s.upc]? = some m → ∃ w, m = .wait w) (d : Draw) (e : Bool) :
    microCycle { d with pinErr := e } s = microCycle d s := by
  unfold microCycle
  cases hm : s.seq[s.upc]? with
  | none => rfl
  | some m =>
    obtain ⟨w, rfl⟩ := h m hm
    rfl

/-- One edge of a busy engine. -/
theorem cycle_of_busy {s : State} (hb : s.busy = true) : cycle s =
    if buildable s.cfg then
      if (currentDraw s).rstN then microCycle (currentDraw s) (beginCycle s) else .goes (resetEdge (beginCycle s))
    else .refuses .notBuilt := by
  simp only [cycle, hb, if_true]

/-- Settles O28: the draws differ in a pin that only the cycle of a drive reads. -/
theorem pinErrorOutsideDriveIsIgnored : Obligations.PinErrorOutsideDriveIsIgnored := by
  intro s d ds e h
  have hcycle : cycle { s with draws := { d with pinErr := e } :: ds } = cycle { s with draws := d :: ds } := by
    cases hb : s.busy with
    | false => rfl
    | true =>
      rw [cycle_of_busy rfl, cycle_of_busy rfl]
      congr 2
      exact microCycle_pinErr (s := beginCycle { s with busy := true, draws := d :: ds }) (h hb) d e
  unfold step
  rw [hcycle]

/-! The timer. -/

/-- Settles O27: the register is wide enough for every cycle count. -/
theorem timerHoldsEveryWait : Obligations.TimerHoldsEveryWait := fun _ w hc =>
  ⟨timerLoad_eq hc w, Nat.mod_lt _ (Nat.two_pow_pos _), default_le_delay hc w⟩

end Sys2Proof.Machine
end

section
/-! SUPPORT. Waits that last longer than their minimum (R13, log 6): the environment holds a wait for as many cycles as
it likes, and then lets it run out. -/

namespace Sys2Proof.Machine

/-- The draw of a cycle in which the environment holds the wait. -/
def Draw.held : Draw := { Draw.quiet with hold := true }

/-- The wait that runs in `s` ends exactly after `n` more cycles, and the engine is busy until then. -/
def WaitEndsIn (n : Nat) (s : State) : Prop :=
  (∃ t, runs n s = .next t ∧ t.upc = s.upc + 1 ∧ t.timer = 0) ∧
  ∀ k < n, ∃ t, runs k s = .next t ∧ t.upc = s.upc ∧ t.busy = true

/-- One more cycle in front, in which the wait goes on. -/
theorem WaitEndsIn.of_step {n : Nat} {s u : State} (h : WaitEndsIn n u) (hb : s.busy = true) (hs : step s = .next u)
    (hu : u.upc = s.upc) : WaitEndsIn (n + 1) s := by
  obtain ⟨⟨t, ht, hupc, htimer⟩, hbefore⟩ := h
  refine ⟨⟨t, (runs_succ_of hs).trans ht, hupc.trans (by rw [hu]), htimer⟩, fun k hk => ?_⟩
  cases k with
  | zero => exact ⟨s, rfl, rfl, hb⟩
  | succ k =>
    obtain ⟨t, ht, hupc, hbusy⟩ := hbefore k (by omega)
    exact ⟨t, (runs_succ_of hs).trans ht, hupc.trans hu, hbusy⟩

/-- R35: without a hold the wait ends when its counter has run out. -/
theorem waitEndsIn_timer {n : Nat} {s : State} {w : Delay} (hc : buildable s.cfg = true) (hb : s.busy = true)
    (ht : s.timer = n + 1) (hm : s.seq[s.upc]? = some (.wait w)) (hq : Calm (n + 1) s.draws) :
    WaitEndsIn (n + 1) s := by
  refine ⟨⟨_, runs_count n s w hc hb ht hm hq, rfl, rfl⟩, fun k hk => ?_⟩
  exact ⟨_, runs_counting k s w (n - k) hc hb (by omega) hm (calm_mono (by omega) hq), rfl, hb⟩

/-- R13: a hold of `j` cycles comes on top of what the counter holds. -/
theorem waitEndsIn_held {n : Nat} {w : Delay} {ds : List Draw} (hq : Calm (n + 1) ds) : ∀ (j : Nat) (s : State),
    buildable s.cfg = true → s.busy = true → s.timer = n + 1 → s.seq[s.upc]? = some (.wait w) →
    s.draws = List.replicate j Draw.held ++ ds → WaitEndsIn (j + (n + 1)) s
  | 0, s, hc, hb, ht, hm, hd => by
    rw [Nat.zero_add]
    exact waitEndsIn_timer hc hb ht hm (by simpa [hd] using hq)
  | j + 1, s, hc, hb, ht, hm, hd => by
    have hdraw : currentDraw s = Draw.held := by simp [currentDraw, hd, List.replicate_succ]
    have hs : step s = .next (beginCycle s) := by
      refine step_micro_goes hc (by rw [hdraw]; rfl) hb hm ?_
      rw [hdraw]
      exact congrArg Cycle.goes (waitCycle_held (by simp [ht]))
    rw [Nat.add_right_comm]
    exact (waitEndsIn_held hq j (beginCycle s) hc hb ht hm (by simp [hd, List.replicate_succ])).of_step hb hs rfl

/-- R13, R35: a hold in the first cycle loads at least 1, so the wait goes on after it. -/
theorem step_starts_held_wait {s : State} {w : Delay} (hc : buildable s.cfg = true) (hb : s.busy = true)
    (ht : s.timer = 0) (hm : s.seq[s.upc]? = some (.wait w)) (hd : currentDraw s = Draw.held) :
    step s = .next (setTimer (max 1 (waitCycles s.cfg w - 1)) (recordMicro (.wait w) (beginCycle s))) := by
  have hload : firstLoad true (timerLoad (beginCycle s).cfg w) = max 1 (waitCycles s.cfg w - 1) :=
    congrArg (max 1) (timerLoad_eq hc w)
  have hne : firstLoad true (timerLoad (beginCycle s).cfg w) ≠ 0 := by
    rw [hload]
    omega
  refine step_micro_goes hc (by rw [hd]; rfl) hb hm ?_
  rw [hd, ← hload]
  exact congrArg Cycle.goes (waitCycle_first_more (s := beginCycle s) ht hne)

/-- Settles O26: the wait is held in its first cycle and as long after it as it is to last longer; a wait of one cycle
that is to last no longer is left alone. -/
theorem waitMayLastLonger : Obligations.WaitMayLastLonger := by
  intro s w k hc hb ht hm
  have hpos := waitCycles_pos s.cfg w
  by_cases hone : waitCycles s.cfg w + k = 1
  · have hs := step_starts_wait (s := { s with draws := [Draw.quiet] }) hc hb ht hm (by simp [Calm, Draw.quiet])
    rw [if_pos (by simp; omega)] at hs
    rw [hone]
    refine ⟨[Draw.quiet], rfl, ⟨_, runs_succ_of hs, rfl, ht⟩, fun n hn => ?_⟩
    obtain rfl : n = 0 := by omega
    exact ⟨_, rfl, rfl, hb⟩
  · obtain ⟨n, hn⟩ : ∃ n, max 1 (waitCycles s.cfg w - 1) = n + 1 := ⟨_, (Nat.sub_add_cancel (by omega)).symm⟩
    obtain ⟨j, hj⟩ : ∃ j, waitCycles s.cfg w + k = j + (n + 1) + 1 := ⟨waitCycles s.cfg w + k - (n + 2), by omega⟩
    have hq : Calm (n + 1) (List.replicate (n + 1) Draw.quiet) := by
      intro d hd
      rw [List.eq_of_mem_replicate (List.mem_of_mem_take hd)]
      exact ⟨rfl, rfl⟩
    have hs := step_starts_held_wait (s := { s with
      draws := List.replicate (j + 1) Draw.held ++ List.replicate (n + 1) Draw.quiet }) hc hb ht hm rfl
    refine ⟨List.replicate (j + 1) Draw.held ++ List.replicate (n + 1) Draw.quiet, by simp; omega, ?_⟩
    rw [hj]
    refine WaitEndsIn.of_step (waitEndsIn_held (w := w) hq j _ ?_ ?_ ?_ ?_ ?_) hb hs rfl
    exacts [hc, hb, hn, hm, rfl]

end Sys2Proof.Machine
end

section
/-! SUPPORT. The pseudo-instruction PRINT (R121): how the assembler reads its line, and what its words decode to. -/

namespace Sys2Proof.Machine

/-- R121: the text runs to the last double quote of the line, which here is its last character. -/
theorem quotedText_of_quoted (text : List Char) : quotedText ([' ', '"'] ++ text ++ ['"']) = some text := by
  simp [quotedText, startOperands, skipBlanks, dropWord]

/-- R120, R121: no other mnemonic begins the line, since `PRINT_CHAR` and `PRINT_END` go on with an underscore. -/
theorem assembleLine_print (rest : List Char) :
    assembleLine (['P', 'R', 'I', 'N', 'T', ' '] ++ rest) = (quotedText (' ' :: rest)).map printWords := by
  simp [assembleLine, dropWord]

/-- R121: a character's word is a PRINT_CHAR with its code point modulo 256. -/
theorem decodeCommand_charWord (c : Char) :
    decodeCommand (commandWord 0x4#4 0x00#8 (charByte c)) = .printChar 0 (BitVec.ofNat 8 (c.toNat % 256)) := by
  have hchar : charByte c = BitVec.ofNat 8 (c.toNat % 256) := BitVec.eq_of_toNat_eq (by simp [charByte])
  simp [decodeCommand, hchar]

/-- R121: the word after the text is a PRINT_END. -/
theorem decodeCommand_endWord : decodeCommand (commandWord16 0x5#4 0x0000#16) = .printEnd 0 := by
  simp [decodeCommand]

/-- Settles O49: the line is read to its text, and the words of the text decode one by one. -/
theorem printLineAssembles : Obligations.PrintLineAssembles := by
  refine fun text => ⟨?_, ?_⟩
  · have h := assembleLine_print (['"'] ++ text ++ ['"'])
    have hq := quotedText_of_quoted text
    simpa using h.trans (congrArg (Option.map printWords) hq)
  · simp [printWords, Function.comp_def, decodeCommand_charWord, decodeCommand_endWord]

end Sys2Proof.Machine
end

section
/-! SUPPORT. A command in a quiet environment, from its acceptance to its response (R183, R34, R71): the run of one
micro-op, of a list of them by induction, and of the completion after the last. The module's part is a fold over the
transfers of the list, from BEGIN on. -/

namespace Sys2Proof.Machine

/-! The levels and the transfers of a list, one micro-op at a time. -/

theorem transfersOf_cons (m : BusMode) (rs e : Bool) (d : Byte) (x : MicroOp) (l : List MicroOp) :
    transfersOf m rs e d (x :: l) =
      transfersOf m rs e d [x] ++ transfersOf m (levelRS rs x) (levelE e x) (levelD m d x) l := by
  cases x <;> simp [transfersOf, levelRS, levelE, levelD]

/-- What a list of transfers makes of the module, from BEGIN on. -/
def lcdAfterAll (m : BusMode) (ts : List Transfer) (l : Lcd) : Lcd := ts.foldl (fun l t => lcdAfter m t l) l

theorem lcdAfterAll_append (m : BusMode) (ts ts' : List Transfer) (l : Lcd) :
    lcdAfterAll m (ts ++ ts') l = lcdAfterAll m ts' (lcdAfterAll m ts l) := List.foldl_append

/-! Runs of a list of micro-ops. -/

/-- The state after the micro-ops `ops` of the running command, with the module `l`. -/
def afterOps (l : Lcd) (ops : List MicroOp) (s : State) : State := { s with
  now := s.now + sequenceCycles s.cfg ops
  draws := s.draws.drop (sequenceCycles s.cfg ops)
  rspValid := s.rspValid && ops.isEmpty
  upc := s.upc + ops.length
  trace := s.trace ++ traceFrom s.cfg (s.now + 1) ops
  transfers := s.transfers ++ transfersOf s.cfg.busMode s.rsQ s.eQ s.dQ ops
  rsQ := ops.foldl levelRS s.rsQ
  eQ := ops.foldl levelE s.eQ
  dQ := ops.foldl (levelD s.cfg.busMode) s.dQ
  lcd := l }

theorem afterOps_singleton (l : Lcd) (m : MicroOp) (s : State) : afterOps l [m] s = { s with
    now := s.now + microCycles s.cfg m, draws := s.draws.drop (microCycles s.cfg m), rspValid := false
    upc := s.upc + 1, trace := s.trace ++ [⟨m, s.now + 1⟩]
    transfers := s.transfers ++ transfersOf s.cfg.busMode s.rsQ s.eQ s.dQ [m]
    rsQ := levelRS s.rsQ m, eQ := levelE s.eQ m, dQ := levelD s.cfg.busMode s.dQ m, lcd := l } := by
  simp [afterOps, sequenceCycles, traceFrom]

theorem afterOps_cons (l l' : Lcd) (m : MicroOp) (ops : List MicroOp) (s : State) :
    afterOps l' ops (afterOps l [m] s) = afterOps l' (m :: ops) s := by
  simp [afterOps, sequenceCycles_cons, sequenceCycles_nil, traceFrom, transfersOf_cons _ _ _ _ m ops,
    Nat.add_assoc, Nat.add_comm, Nat.add_left_comm]

/-- For `n` more cycles the engine is busy, and gives no response. -/
def BusyFor (n : Nat) (s : State) : Prop :=
  ∀ k ≤ n, ∃ u, runs k s = .next u ∧ u.busy = true ∧ (0 < k → u.rspValid = false)

theorem busyFor_zero {s : State} (hb : s.busy = true) : BusyFor 0 s := by
  intro k hk
  obtain rfl : k = 0 := by omega
  exact ⟨s, rfl, hb, by simp⟩

theorem BusyFor.append {n m : Nat} {s t : State} (h : BusyFor n s) (ht : runs n s = .next t) (h' : BusyFor m t) :
    BusyFor (n + m) s := by
  intro k hk
  by_cases hkn : k ≤ n
  · exact h k hkn
  · obtain ⟨j, rfl⟩ := Nat.exists_eq_add_of_le (Nat.le_of_not_le hkn)
    obtain ⟨u, hu, hb, hv⟩ := h' j (by omega)
    exact ⟨u, (runs_add ht).trans hu, hb, fun _ => hv (by omega)⟩

/-- The run of the micro-ops `ops` of a busy engine: it is busy all the while, and ends as the list says. -/
def Performs (ops : List MicroOp) (s : State) : Prop :=
  BusyFor (sequenceCycles s.cfg ops) s ∧
  ∃ l, runs (sequenceCycles s.cfg ops) s = .next (afterOps l ops s) ∧
    (beforeBegin s = false → l = lcdAfterAll s.cfg.busMode (transfersOf s.cfg.busMode s.rsQ s.eQ s.dQ ops) s.lcd)

theorem performs_nil {s : State} (hb : s.busy = true) : Performs [] s := by
  refine ⟨busyFor_zero hb, s.lcd, ?_, fun _ => rfl⟩
  simp [afterOps, sequenceCycles_nil, traceFrom, transfersOf]

theorem Performs.cons {m : MicroOp} {ops : List MicroOp} {s : State} (h : Performs [m] s)
    (h' : ∀ l, Performs ops (afterOps l [m] s)) : Performs (m :: ops) s := by
  obtain ⟨hbusy, l, hrun, hl⟩ := h
  obtain ⟨hbusy', l', hrun', hl'⟩ := h' l
  have hcycles : sequenceCycles s.cfg (m :: ops) = sequenceCycles s.cfg [m] + sequenceCycles s.cfg ops :=
    sequenceCycles_append s.cfg [m] ops
  rw [afterOps_cons] at hrun'
  refine ⟨hcycles ▸ hbusy.append hrun hbusy', l', hcycles ▸ (runs_add hrun).trans hrun', fun hbegun => ?_⟩
  rw [transfersOf_cons, lcdAfterAll_append, ← hl hbegun]
  exact hl' hbegun

/-! The run of one micro-op. -/

/-- A drive takes one cycle. -/
theorem performs_of_step {m : MicroOp} {s : State} {l : Lcd} (hm : microCycles s.cfg m = 1) (hb : s.busy = true)
    (hs : step s = .next (afterOps l [m] s))
    (hl : beforeBegin s = false → l = lcdAfterAll s.cfg.busMode (transfersOf s.cfg.busMode s.rsQ s.eQ s.dQ [m]) s.lcd) :
    Performs [m] s := by
  have hcycles : sequenceCycles s.cfg [m] = 0 + 1 := by simp [sequenceCycles, hm]
  have hrun : runs (0 + 1) s = .next (afterOps l [m] s) := runs_succ_of hs
  refine ⟨?_, l, by rw [hcycles, hrun], hl⟩
  intro k hk
  obtain rfl | rfl : k = 0 ∨ k = 0 + 1 := by omega
  · exact ⟨s, rfl, hb, by simp⟩
  · exact ⟨_, hrun, hb, fun _ => by simp [afterOps]⟩

theorem calm_of_quiet {n : Nat} {s : State} (h : QuietFor n s) : Calm n s.draws := by
  intro d hd
  rw [h d hd]
  exact ⟨rfl, rfl⟩

/-- In a quiet cycle there is no reset, no failed drive and no lost transfer. -/
theorem draw_of_quiet {s : State} (h : QuietFor 1 s) : (currentDraw s).rstN = true ∧
    (currentDraw s).pinErr = false ∧ (currentDraw s).lcdMisses = false := by
  rw [quiet_head h]
  exact ⟨rfl, rfl, rfl⟩

/-- R173: a wait takes its cycles. -/
theorem performs_wait {w : Delay} {s : State} (hc : buildable s.cfg = true) (hb : s.busy = true) (ht : s.timer = 0)
    (hm : s.seq[s.upc]? = some (.wait w)) (hq : QuietFor (waitCycles s.cfg w) s) : Performs [.wait w] s := by
  have hcycles : sequenceCycles s.cfg [.wait w] = waitCycles s.cfg w := by simp [sequenceCycles, microCycles]
  have hrun := runs_wait hc hb ht hm (calm_of_quiet hq)
  refine ⟨?_, s.lcd, ?_, fun _ => rfl⟩
  · intro k hk
    rw [hcycles] at hk
    obtain rfl | ⟨j, rfl⟩ : k = 0 ∨ ∃ j, k = j + 1 := by cases k <;> simp
    · exact ⟨s, rfl, hb, by simp⟩
    · obtain hlt | heq := Nat.lt_or_eq_of_le hk
      · exact ⟨_, runs_into_wait hc hb ht hm (calm_of_quiet hq) hlt, hb, fun _ => rfl⟩
      · exact ⟨_, (congrArg (runs · s) heq).trans hrun, hb, fun _ => rfl⟩
  · rw [hcycles, hrun]
    simp [afterOps_singleton, microCycles, transfersOf, levelRS, levelE, levelD]

/-- R171 on a falling edge: from BEGIN on the module is what the transfer makes of it. -/
theorem step_falls_taken {s : State} (hc : buildable s.cfg = true) (hr : (currentDraw s).rstN = true)
    (hb : s.busy = true) (hm : s.seq[s.upc]? = some (.drvE false)) (hp : (currentDraw s).pinErr = false)
    (hx : (currentDraw s).lcdMisses = false) (he : s.eQ = true) :
    ∃ l, step s = .next (withLcd l (fallE (recordMicro (.drvE false) (beginCycle s)))) ∧
      (beforeBegin s = false → l = lcdAfter s.cfg.busMode ⟨s.rsQ, s.dQ⟩ s.lcd) := by
  by_cases hbegun : beforeBegin s = false
  · have hreceive := receive_next ⟨s.rsQ, s.dQ⟩ (s := fallE (recordMicro (.drvE false) (beginCycle s))) hbegun
    refine ⟨_, ?_, fun _ => rfl⟩
    rw [step_micro hc hr hb hm, runMicro_falls hp hx he]
    exact hreceive
  · obtain ⟨l, hl⟩ := step_falls hc hr hb hm hp he
    exact ⟨l, hl, fun h => absurd h hbegun⟩

/-- R170 to R173: any micro-op in a quiet environment. -/
theorem performs_micro {m : MicroOp} {s : State} (hc : buildable s.cfg = true) (hb : s.busy = true) (ht : s.timer = 0)
    (hm : s.seq[s.upc]? = some m) (hq : QuietFor (microCycles s.cfg m) s) : Performs [m] s := by
  cases m with
  | wait w => exact performs_wait hc hb ht hm hq
  | drvRS l =>
    obtain ⟨hr, hp, -⟩ := draw_of_quiet hq
    refine performs_of_step (l := s.lcd) rfl hb ?_ fun _ => rfl
    rw [(driveSelectTakesOneCycle s l hc hb hr hm).1 hp]
    simp [afterOps_singleton, microCycles, transfersOf, levelRS, levelE, levelD]
  | drvD v =>
    obtain ⟨hr, hp, -⟩ := draw_of_quiet hq
    refine performs_of_step (l := s.lcd) rfl hb ?_ fun _ => rfl
    rw [step_micro_goes hc hr hb hm (if_neg (Bool.eq_false_iff.1 hp))]
    simp [afterOps_singleton, microCycles, transfersOf, levelRS, levelE, levelD, advance, driveD, recordMicro,
      beginCycle]
  | drvE l =>
    obtain ⟨hr, hp, hx⟩ := draw_of_quiet hq
    by_cases he : s.eQ = true ∧ l = false
    · obtain ⟨he, rfl⟩ := he
      obtain ⟨l, hs, hl⟩ := step_falls_taken hc hr hb hm hp hx he
      refine performs_of_step (l := l) rfl hb ?_ (by simpa [transfersOf, he, lcdAfterAll] using hl)
      rw [hs, fallE_beginCycle]
      simp [withLcd, afterOps_singleton, microCycles, transfersOf, levelRS, levelE, levelD, he]
    · have hno : transfersOf s.cfg.busMode s.rsQ s.eQ s.dQ [.drvE l] = [] := by simpa [transfersOf] using he
      refine performs_of_step (l := s.lcd) rfl hb ?_ fun _ => by rw [hno]; rfl
      rw [step_drivesE hc hr hb hm hp he]
      simp [afterOps_singleton, microCycles, hno, levelRS, levelE, levelD, advance, driveE, recordMicro, beginCycle]

/-! The run of a list, and of a whole command. -/

/-- R34: the micro-ops that follow in the sequence run one after the other. -/
theorem performs_ops : ∀ (ops : List MicroOp) {s : State}, buildable s.cfg = true → s.busy = true → s.timer = 0 →
    ops <+: s.seq.drop s.upc → QuietFor (sequenceCycles s.cfg ops) s → Performs ops s
  | [], _, _, hb, _, _, _ => performs_nil hb
  | m :: ops, s, hc, hb, ht, hops, hq => by
    obtain ⟨rest, hrest⟩ := hops
    have hm : s.seq[s.upc]? = some m := by
      rw [← Nat.add_zero s.upc, ← List.getElem?_drop, ← hrest]
      rfl
    rw [sequenceCycles_cons] at hq
    refine (performs_micro hc hb ht hm (quiet_take hq)).cons fun l => ?_
    refine performs_ops ops hc hb ht ⟨rest, ?_⟩ (quiet_drop hq ?_)
    · simpa [afterOps, Nat.add_comm] using congrArg List.tail hrest
    · simp [afterOps, sequenceCycles]

/-- R34, R183: a command that has just been accepted, to its response. -/
theorem runs_to_response {s : State} (hc : buildable s.cfg = true) (hb : s.busy = true) (hu : s.upc = 0)
    (ht : s.timer = 0) (hq : QuietFor (responseEdges s.cfg s.seq) s) :
    BusyFor (sequenceCycles s.cfg s.seq) s ∧
    ∃ l, runs (responseEdges s.cfg s.seq) s = .next (completeCommand (beginCycle (afterOps l s.seq s))) ∧
      (beforeBegin s = false →
        l = lcdAfterAll s.cfg.busMode (transfersOf s.cfg.busMode s.rsQ s.eQ s.dQ s.seq) s.lcd) := by
  rw [responseEdges, Nat.add_comm] at hq ⊢
  obtain ⟨hbusy, l, hrun, hl⟩ := performs_ops s.seq hc hb ht (by simp [hu]) (quiet_take hq)
  refine ⟨hbusy, l, ?_, hl⟩
  obtain ⟨hr, -⟩ := draw_of_quiet (s := afterOps l s.seq s) (quiet_drop hq rfl)
  rw [runs_add hrun]
  exact runs_succ_of (step_completes (s := afterOps l s.seq s) hc hr hb (by simp [afterOps, hu]))

/-- Settles O46: the response is the completion after the whole expansion. -/
theorem acceptedCommandRunsToItsResponse : Obligations.AcceptedCommandRunsToItsResponse := by
  intro s hc hb hu ht hq
  obtain ⟨hbusy, l, hrun, -⟩ := runs_to_response hc hb hu ht hq
  have hnow : s.now + sequenceCycles s.cfg s.seq + 1 = s.now + responseEdges s.cfg s.seq := by
    rw [responseEdges]
    omega
  exact ⟨hbusy, _, hrun, rfl, rfl, rfl, rfl, rfl, rfl, rfl, rfl, rfl, rfl, ht, hnow, rfl, rfl, rfl, rfl, rfl⟩

end Sys2Proof.Machine
end

section
/-! SUPPORT. BEGIN and the module (R140, R152, R285; 95_test_vectors.md section 4): its transfers bring a module in any
state to the one initialized state. The third wake-up value forces the 8-bit interface, and from there every transfer
has a reading. -/

namespace Sys2Proof.Machine

/-! The module over BEGIN's transfers. -/

/-- R144: the wake-up transfer of the init phase. -/
def wakeTransfer : BusMode → Transfer
  | .fourBit => ⟨false, 0x3⟩
  | .eightBit => ⟨false, 0x30⟩

theorem nextWakes_wakeTransfer (m : BusMode) (w : Nat) : nextWakes m (wakeTransfer m) w = min 3 (w + 1) := by
  cases m <;> rfl

/-- R144, I3: the third wake-up value in a row forces the 8-bit interface, from any state of the module. -/
theorem lcdAfter_third_wake {m : BusMode} {l : Lcd} (h : nextWakes m (wakeTransfer m) l.wakes = 3) :
    (lcdAfter m (wakeTransfer m) l).phase = .eight := by
  unfold lcdAfter classify
  rw [if_pos h]
  cases m with
  | fourBit => rfl
  | eightBit => cases decide (l.wakes < 3) <;> rfl

/-- R144: the three wake-up values of the init phase. -/
theorem lcdAfterAll_three_wakes (m : BusMode) (l : Lcd) (ts : List Transfer) :
    ∃ l', l'.phase = .eight ∧ l'.wakes = 3 ∧
      lcdAfterAll m (wakeTransfer m :: wakeTransfer m :: wakeTransfer m :: ts) l = lcdAfterAll m ts l' := by
  refine ⟨_, lcdAfter_third_wake ?_, ?_, rfl⟩
  all_goals
    simp only [lcdAfter_wakes, nextWakes_wakeTransfer]
    omega

/-- 95 section 4: the module as BEGIN leaves it, with its counter of free values open. -/
structure LcdInitialized (m : BusMode) (twoLine : Bool) (l : Lcd) : Prop where
  phase : l.phase = match m with | .fourBit => .four none | .eightBit => .eight
  lines : l.twoLine = twoLine
  font : l.font = false
  display : l.displayOn = true ∧ l.cursorOn = false ∧ l.blinkOn = false
  entry : l.increment = true ∧ l.shift = false
  ac : l.ac = 0
  ddram : l.ddram = []

/-- R144 to R149: from the 8-bit interface on each transfer of BEGIN has one effect. -/
theorem lcdAfterAll_begin_fourBit {l : Lcd} (hp : l.phase = .eight) (rows : Byte) :
    LcdInitialized .fourBit (decide (1 < rows.toNat)) (lcdAfterAll .fourBit
      [⟨false, 0x2⟩, ⟨false, 0x2⟩, ⟨false, if 1 < rows.toNat then 0x8 else 0x0⟩,
       ⟨false, 0x0⟩, ⟨false, 0xC⟩, ⟨false, 0x0⟩, ⟨false, 0x1⟩, ⟨false, 0x0⟩, ⟨false, 0x6⟩] l) := by
  cases l
  subst hp
  by_cases h : 1 < rows.toNat <;> simp only [h, if_true, if_false, decide_true, decide_false] <;>
    exact ⟨rfl, rfl, rfl, ⟨rfl, rfl, rfl⟩, ⟨rfl, rfl⟩, rfl, rfl⟩

theorem lcdAfterAll_begin_eightBit {l : Lcd} (hp : l.phase = .eight) (hw : l.wakes = 3) (rows : Byte) :
    LcdInitialized .eightBit (decide (1 < rows.toNat)) (lcdAfterAll .eightBit
      [⟨false, if 1 < rows.toNat then 0x38 else 0x30⟩, ⟨false, 0x0C⟩, ⟨false, 0x01⟩, ⟨false, 0x06⟩] l) := by
  cases l
  subst hp
  subst hw
  by_cases h : 1 < rows.toNat <;> simp only [h, if_true, if_false, decide_true, decide_false] <;>
    exact ⟨rfl, rfl, rfl, ⟨rfl, rfl, rfl⟩, ⟨rfl, rfl⟩, rfl, rfl⟩

/-- R285: the transfers of BEGIN initialize a module in any state. -/
theorem lcdInitialized_begin (m : BusMode) (rs : Bool) (d rows : Byte) (l : Lcd) :
    LcdInitialized m (decide (1 < rows.toNat)) (lcdAfterAll m (transfersOf m rs false d (beginSeq m rows)) l) := by
  cases m with
  | fourBit =>
    obtain ⟨l', hp, -, hl'⟩ := lcdAfterAll_three_wakes .fourBit l _
    rw [transfersOf_beginSeq_fourBit]
    exact hl' ▸ lcdAfterAll_begin_fourBit hp rows
  | eightBit =>
    obtain ⟨l', hp, hw, hl'⟩ := lcdAfterAll_three_wakes .eightBit l _
    rw [transfersOf_beginSeq_eightBit]
    exact hl' ▸ lcdAfterAll_begin_eightBit hp hw rows

/-! The run of BEGIN. -/

/-- R140: the state in which a BEGIN has just been accepted from `s`. -/
def begun (columns rows : Byte) (s : State) : State :=
  startSequence (beginSeq s.cfg.busMode rows)
    (storeGeometry columns rows (latchCommand 0x1 columns rows (takeCommand (beginCycle s))))

section

variable (columns rows : Byte) (s : State)

@[simp] theorem begun_cfg : (begun columns rows s).cfg = s.cfg := by simp [begun]
@[simp] theorem begun_columns : (begun columns rows s).columns = columns := by simp [begun]
@[simp] theorem begun_rows : (begun columns rows s).rows = rows := by simp [begun]
@[simp] theorem begun_busy : (begun columns rows s).busy = true := by simp [begun]
@[simp] theorem begun_curOp : (begun columns rows s).curOp = 0x1 := by simp [begun]
@[simp] theorem begun_seq : (begun columns rows s).seq = beginSeq s.cfg.busMode rows := by simp [begun]
@[simp] theorem begun_upc : (begun columns rows s).upc = 0 := by simp [begun]
@[simp] theorem begun_timer : (begun columns rows s).timer = s.timer := by simp [begun]
@[simp] theorem begun_eQ : (begun columns rows s).eQ = s.eQ := by simp [begun]
@[simp] theorem begun_fault : (begun columns rows s).fault = s.fault := by simp [begun]
@[simp] theorem begun_draws : (begun columns rows s).draws = s.draws.tail := by simp [begun]

end

/-- R45, R140: in a quiet cycle an idle engine accepts the BEGIN that the host holds on its port. -/
theorem step_accepts_begin {s : State} {columns rows : Byte} (hc : buildable s.cfg = true) (hb : s.busy = false)
    (hf : s.fault = false) (hw : s.host.head? = some (commandWord 0x1 columns rows)) (hd : currentDraw s = Draw.quiet) :
    step s = .next (begun columns rows s) := by
  have hpresented : presented s = some (commandWord 0x1 columns rows) := by simp [presented, hd, Draw.quiet, hw]
  obtain ⟨-, hdecode, -⟩ := opcodeMapIsComplete 0x1 columns rows
  rw [step_accepts hc (by rw [hd]; rfl) hb hf hpresented, hdecode rfl]
  exact congrArg Host.Outcome.next (acceptCommand_of_idle (s := takeCommand (beginCycle s)) hb hf _ _ _ _)

/-- R34, R152: the registers that a completed command leaves, as the accepted command had them. -/
theorem completed_afterOps {l : Lcd} {s t : State} (h : completeCommand (beginCycle (afterOps l s.seq s)) = t) :
    t.busy = false ∧ t.fault = s.fault ∧ t.initState = initAfter s.curOp s.initState ∧ t.columns = s.columns ∧
    t.rows = s.rows ∧ t.rspValid = true ∧ t.rspErr = false ∧ t.rspData = responseData s ∧ t.lcd = l := by
  subst h
  exact ⟨rfl, rfl, rfl, rfl, rfl, rfl, rfl, rfl, rfl⟩

/-- Settles O47: the acceptance, the run to the response, and the module over the transfers of the expansion. -/
theorem beginInitializesAnyModule : Obligations.BeginInitializesAnyModule := by
  intro s columns rows hi hb hf hw hq
  have htimer : s.timer = 0 := hi.timer_eq_zero (by simp [hb])
  have he : s.eQ = false := hi.enable.2 hb hf
  have hs := step_accepts_begin hi.built hb hf hw (quiet_head (n := 0) (quiet_take hq))
  obtain ⟨-, l, hrun, hl⟩ := runs_to_response (s := begun columns rows s) (by simpa using hi.built) (by simp) (by simp)
    (by simpa using htimer) (by simpa using quiet_drop (u := begun columns rows s) hq (by simp))
  have hlcd : LcdInitialized s.cfg.busMode (decide (1 < rows.toNat)) l := by
    rw [hl (beforeBegin_eq_false (.inl (by simp))), begun_eQ, he, begun_cfg, begun_seq]
    exact lcdInitialized_begin _ _ _ _ _
  obtain ⟨hphase, hlines, hfont, ⟨hdisplay, hcursor, hblink⟩, ⟨hincrement, hshift⟩, hac, hddram⟩ := hlcd
  generalize ht : completeCommand _ = t at hrun
  obtain ⟨hbusy, hfault, hinit, hcolumns, hrows, hvalid, herr, hdata, rfl⟩ := completed_afterOps ht
  rw [begun_cfg, begun_seq] at hrun
  rw [begun_fault] at hfault
  rw [begun_curOp] at hinit
  rw [begun_columns] at hcolumns
  rw [begun_rows] at hrows
  have hzero : responseData (begun columns rows s) = 0 := by simp [responseData]
  exact ⟨t, (runs_add (n := 1) (runs_succ_of hs)).trans hrun, hbusy, hfault.trans hf, hinit, hcolumns, hrows, hvalid,
    herr, hdata.trans hzero, hphase, hlines, hfont, hdisplay, hcursor, hblink, hincrement, hshift, hac,
    fun addr => by rw [hddram]; rfl⟩

end Sys2Proof.Machine
end
